-- ==== Sys2Proof/Word.lean ====
section
/-! DEFINITION. The bit-vector widths the spec names: bytes, 7-bit payload bytes, event words, the operands of BEGIN. -/

namespace Sys2Proof

/-- A byte of the transmit queue or of the byte stream (20_memory R60, 30_encoding R83). -/
abbrev Byte := BitVec 8

/-- A payload byte after the 7-bit mask: the element of LAB and VAL (20_memory R60, 43_parser_framing R163). -/
abbrev Byte7 := BitVec 7

/-- An event word (30_encoding R80). -/
abbrev Word := BitVec 32

/-- The pin number, PIN_BITS = 5 (00_scope R8). -/
abbrev Pin := BitVec 5

/-- The baud rate, BAUD_BITS = 22 (00_scope R8). -/
abbrev Baud := BitVec 22

end Sys2Proof
end

