-- ==== Sys2Proof/Syntax.lean ====
section
/-! DEFINITION. The thirteen events (00_scope R2, 30_encoding R85), one constructor per row of spec/opcode_table.json. -/

namespace Sys2Proof

/-- An event of the block. Operands are the fields of formats B, Q and Y (30_encoding R82 to R84, R86). -/
inductive Instr where
  /-- BEGIN `baud, pin`, format B. -/
  | beginTx (baud : Baud) (pin : Pin)
  /-- ENQ `byte` with the scheduler's answer `g` (true: accept), format Q. -/
  | enq (byte : Byte) (g : Bool)
  /-- FLUSH. -/
  | flush
  /-- END. -/
  | endTx
  /-- TICK, the timer-compare match. -/
  | tick
  /-- PREPARE, the start of a window, COOP only. -/
  | prepare
  /-- STARTREAD. -/
  | startread
  /-- STOPREAD. -/
  | stopread
  /-- REGL. -/
  | regl
  /-- UNREGL. -/
  | unregl
  /-- RX `byte`, format Y: all eight bits, before the mask. -/
  | rx (byte : Byte)
  /-- TIMEOUT. -/
  | timeout
  /-- PSTOP, produced by the parser engine itself. -/
  | pstop
deriving DecidableEq, Repr

end Sys2Proof
end

