-- ==== Sys2Proof/Config.lean ====
section
/-! DEFINITION. The parameters of 00_scope R8, the control octets of R9 and the field registry table of 44_field_registry R203. -/

namespace Sys2Proof

/-- The TX engine's variant, a static parameter (00_scope R3). -/
inductive Variant where
  | simple
  | coop
deriving DecidableEq, Repr

/-- The kinds of a registry row (44_field_registry R203, 30_encoding R91). -/
inductive Kind where
  | text
  | uint
  | optarif
  | ptec
deriving DecidableEq, Repr

/-- One row of REGISTRY (44_field_registry R203). Its `fid` is its position in the table (30_encoding R91: "the row number of the
field in REGISTRY"). -/
structure RegistryRow where
  label : List Byte7
  kind  : Kind
deriving DecidableEq, Repr

/-- The two interrupt callbacks the source names (60_exceptions R240, R241). -/
inductive Callback where
  | timerCompare
  | timeslot
deriving DecidableEq, Repr

namespace Config

/-- The source's default of QCAP, the transmit queue's capacity in bytes (R8). -/
abbrev QCAP : Nat := 80

/-- The source's default of LABEL_MAX, the most bytes in a label (R8). -/
abbrev LABEL_MAX : Nat := 7

/-- The source's default of VALUE_MAX, the most bytes in a value (R8). -/
abbrev VALUE_MAX : Nat := 15

/-- The source's default of READ_TIMEOUT_MS (R8, R292). -/
def READ_TIMEOUT_MS : Nat := 100

/-- POLL_SLEEP_MS: OPEN, no rule depends on it (R8). A free value. -/
opaque POLL_SLEEP_MS : Nat

/-- PRIO, the priority level each callback runs at: OPEN, no rule depends on it (R8, R241). A free value. -/
opaque PRIO : Callback → Fin 2

/-- Start-of-frame (R9). -/
abbrev STX : Byte7 := 0x02#7

/-- End-of-frame (R9). -/
abbrev ETX : Byte7 := 0x03#7

/-- The default of EOT, end-of-text (R9). The octet is a parameter (93 G1); its default value is the spec's general knowledge, PRESUMED,
log entry 14. -/
abbrev EOT : Byte7 := 0x04#7

/-- Line feed, group start (R9). -/
abbrev LF : Byte7 := 0x0A#7

/-- Space, separator (R9). -/
abbrev SP : Byte7 := 0x20#7

/-- Carriage return, group trailer (R9). -/
abbrev CR : Byte7 := 0x0D#7

/-- ASCII characters as payload bytes ("a byte in quotes is its ASCII code", 00_scope R10). -/
def ascii (cs : List Char) : List Byte7 := cs.map fun c => BitVec.ofNat 7 c.toNat

/-- Rows 0 to 2 of REGISTRY: the sourced ones (44_field_registry R203). -/
def sourcedRegistry : List RegistryRow :=
  [ ⟨ascii ['A', 'D', 'C', 'O'], .text⟩,
    ⟨ascii ['O', 'P', 'T', 'A', 'R', 'I', 'F'], .optarif⟩,
    ⟨ascii ['P', 'T', 'E', 'C'], .ptec⟩ ]

/-- Rows 3 to 15 of REGISTRY: the spec's general knowledge (44_field_registry R203, 93 G2). PRESUMED, log entry 13. -/
def presumedRegistry : List RegistryRow :=
  [ ⟨ascii ['I', 'S', 'O', 'U', 'S', 'C'], .uint⟩,
    ⟨ascii ['B', 'A', 'S', 'E'], .uint⟩,
    ⟨ascii ['H', 'C', 'H', 'C'], .uint⟩,
    ⟨ascii ['H', 'C', 'H', 'P'], .uint⟩,
    ⟨ascii ['E', 'J', 'P', 'H', 'N'], .uint⟩,
    ⟨ascii ['E', 'J', 'P', 'H', 'P', 'M'], .uint⟩,
    ⟨ascii ['P', 'E', 'J', 'P'], .uint⟩,
    ⟨ascii ['I', 'I', 'N', 'S', 'T'], .uint⟩,
    ⟨ascii ['A', 'D', 'P', 'S'], .uint⟩,
    ⟨ascii ['I', 'M', 'A', 'X'], .uint⟩,
    ⟨ascii ['P', 'A', 'P', 'P'], .uint⟩,
    ⟨ascii ['H', 'H', 'P', 'H', 'C'], .text⟩,
    ⟨ascii ['D', 'E', 'M', 'A', 'I', 'N'], .text⟩ ]

/-- The default REGISTRY of R203, all sixteen rows. -/
def defaultRegistry : List RegistryRow := sourcedRegistry ++ presumedRegistry

end Config

/-- The parameters of 00_scope R8: those it leaves OPEN as "argument of the model" and some rule reads, the four literals of the
source, each a parameter with the source's default (93 U19, U20), and the end-of-text octet EOT of R9 (93 G1). They are fixed before reset and never change
(70_reset_and_hazards R272 point 4). DEDUCED, log entry 5: `tsMarginUs` carries the bound of 40_tx_host_commands R101 and 93 U26
(TS_MARGIN_US <= 4284967295) in its type, and `timerHz` is 32 bits wide because `period` is (10_state R30). DEDUCED, log entry 27:
`labelMax` is at most 7 and `valueMax` at most 15 in their types, the most that `lablen` (3 bits, R36) and `vallen` (4 bits, R37) count
to. PRESUMED, log entry 14: the default of `eot`. `readTimeoutMs` is timing only and no rule reads it (R292). -/
structure Params where
  variant    : Variant
  timerHz    : BitVec 32
  tsMarginUs : Fin 4284967296
  registry   : List RegistryRow
  qcap       : Nat := Config.QCAP
  labelMax   : Fin 8 := ⟨Config.LABEL_MAX, by decide⟩
  valueMax   : Fin 16 := ⟨Config.VALUE_MAX, by decide⟩
  readTimeoutMs : Nat := Config.READ_TIMEOUT_MS
  eot        : Byte7 := Config.EOT
deriving DecidableEq, Repr

/-- The parameters of the reset state `State.reset`: those 95_test_vectors uses, in the variant that has all thirteen events, and
the source's defaults. DESIGN CHOICE, log entry 4; every claim about a state holds for every value of its parameters. -/
def Params.default : Params :=
  { variant := .coop, timerHz := 1000000#32, tsMarginUs := 100, registry := Config.defaultRegistry }

end Sys2Proof
end

