-- ==== Sys2Proof/WellFormed.lean ====
section
/-! DEFINITION. What the types do not already say about an event and about the parameters. -/

namespace Sys2Proof

/-- An event is well-formed for a variant. Operand widths are in the types, so the one check left is 30_encoding R88: PREPARE exists
only in the COOP variant. -/
def Instr.wellFormed (v : Variant) : Instr → Bool
  | .prepare => v == .coop
  | .beginTx _ _ => true
  | .enq _ _ => true
  | .flush => true
  | .endTx => true
  | .tick => true
  | .startread => true
  | .stopread => true
  | .regl => true
  | .unregl => true
  | .rx _ => true
  | .timeout => true
  | .pstop => true

/-- A label of 1 to LABEL_MAX bytes (7 by default; log entry 27), none of them SP: a label with a space could never be received
(44_field_registry R203, 43_parser_framing R168). -/
def RegistryRow.wellFormed (labelMax : Nat) (r : RegistryRow) : Bool :=
  decide (1 ≤ r.label.length) && decide (r.label.length ≤ labelMax) && !r.label.contains Config.SP

/-- REGISTRY has distinct labels (44_field_registry R203). -/
def distinctLabels : List RegistryRow → Bool
  | [] => true
  | r :: rs => rs.all (fun r' => r'.label != r.label) && distinctLabels rs

/-- The parameters are as 00_scope R8 and 44_field_registry R203 ask: TIMER_HZ at least 1, rows well-formed, labels distinct. -/
def Params.wellFormed (p : Params) : Bool :=
  decide (1 ≤ p.timerHz.toNat) && p.registry.all (RegistryRow.wellFormed p.labelMax.val) && distinctLabels p.registry

end Sys2Proof
end

