-- ==== Sys2Proof/Decode.lean ====
section
/-! DEFINITION. The event word: decoder, encoder, the opcode table, and the bytes of a stored word (30_encoding R80 to R88, R94, R95). -/

namespace Sys2Proof

/-- Why a word or a byte sequence is no event (30_encoding R87, R88). -/
inductive DecodeError where
  /-- The opcode has no row in R85. -/
  | unassignedOpcode
  /-- A field the format calls zero is not zero. -/
  | reservedBits
  /-- PREPARE in the SIMPLE variant (R88). -/
  | notInVariant
  /-- Fewer than four bytes stored. -/
  | truncated
deriving DecidableEq, Repr

/-- The four formats (R81 to R84). -/
inductive Format where
  | N
  | Q
  | Y
  | B
deriving DecidableEq, Repr

/-- A row of the opcode map of R85: a word `w` is the row's event exactly when `w &&& mask = pattern`. -/
structure OpcodeRow where
  format  : Format
  pattern : Word
  mask    : Word
deriving DecidableEq, Repr

/-- The thirteen rows of R85, in the table's order. -/
def opcodeTable : List OpcodeRow :=
  [ ⟨.B, 0x08000000#32, 0xF8000000#32⟩,
    ⟨.Q, 0x10000000#32, 0xFFFFFE00#32⟩,
    ⟨.N, 0x18000000#32, 0xFFFFFFFF#32⟩,
    ⟨.N, 0x20000000#32, 0xFFFFFFFF#32⟩,
    ⟨.N, 0x40000000#32, 0xFFFFFFFF#32⟩,
    ⟨.N, 0x48000000#32, 0xFFFFFFFF#32⟩,
    ⟨.N, 0x80000000#32, 0xFFFFFFFF#32⟩ ] ++
  [ ⟨.N, 0x88000000#32, 0xFFFFFFFF#32⟩,
    ⟨.N, 0x90000000#32, 0xFFFFFFFF#32⟩,
    ⟨.N, 0x98000000#32, 0xFFFFFFFF#32⟩,
    ⟨.Y, 0xC0000000#32, 0xFFFFFF00#32⟩,
    ⟨.N, 0xC8000000#32, 0xFFFFFFFF#32⟩,
    ⟨.N, 0xD0000000#32, 0xFFFFFFFF#32⟩ ]

/-- Bits 31:27, the opcode (R80). -/
def opField (w : Word) : BitVec 5 := w.extractLsb' 27 5

/-- Bits 26:22 and 21:0 of format B (R84). -/
def pinField (w : Word) : Pin := w.extractLsb' 22 5
def baudField (w : Word) : Baud := w.extractLsb' 0 22

/-- Bits 7:0 of formats Q and Y, bit 8 of format Q (R82, R83). -/
def byteField (w : Word) : Byte := w.extractLsb' 0 8
def answerField (w : Word) : Bool := w.getLsbD 8

/-- Format N: every bit below the opcode is zero (R81). -/
def decodeN (w : Word) (i : Instr) : Except DecodeError Instr :=
  if w.extractLsb' 0 27 = 0#27 then .ok i else .error .reservedBits

/-- Format Q: bits 26:9 are zero (R82). -/
def decodeQ (w : Word) : Except DecodeError Instr :=
  if w.extractLsb' 9 18 = 0#18 then .ok (.enq (byteField w) (answerField w)) else .error .reservedBits

/-- Format Y: bits 26:8 are zero (R83). -/
def decodeY (w : Word) : Except DecodeError Instr :=
  if w.extractLsb' 8 19 = 0#19 then .ok (.rx (byteField w)) else .error .reservedBits

/-- The decoder, total on words: an event, or the reason the word is illegal (R85, R87). It knows no variant; see `decodeFor`. -/
def decode (w : Word) : Except DecodeError Instr :=
  if opField w = 0x01#5 then .ok (.beginTx (baudField w) (pinField w))
  else if opField w = 0x02#5 then decodeQ w
  else if opField w = 0x03#5 then decodeN w .flush
  else if opField w = 0x04#5 then decodeN w .endTx
  else if opField w = 0x08#5 then decodeN w .tick
  else if opField w = 0x09#5 then decodeN w .prepare
  else if opField w = 0x10#5 then decodeN w .startread
  else if opField w = 0x11#5 then decodeN w .stopread
  else if opField w = 0x12#5 then decodeN w .regl
  else if opField w = 0x13#5 then decodeN w .unregl
  else if opField w = 0x18#5 then decodeY w
  else if opField w = 0x19#5 then decodeN w .timeout
  else if opField w = 0x1A#5 then decodeN w .pstop
  else .error .unassignedOpcode

/-- The decoder of a block built as variant `v`: PREPARE is an illegal word in SIMPLE (R88). -/
def decodeFor (v : Variant) (w : Word) : Except DecodeError Instr :=
  match decode w with
  | .error e => .error e
  | .ok i => if i.wellFormed v then .ok i else .error .notInVariant

/-- A stored word, most significant byte first (R94). -/
def wordOfBytes (b3 b2 b1 b0 : Byte) : Word :=
  (b3.setWidth 32 <<< 24) + (b2.setWidth 32 <<< 16) + (b1.setWidth 32 <<< 8) + b0.setWidth 32

/-- The four stored bytes of a word, most significant first (R94). -/
def bytesOfWord (w : Word) : List Byte :=
  [w.extractLsb' 24 8, w.extractLsb' 16 8, w.extractLsb' 8 8, w.extractLsb' 0 8]

/-- The decoder on stored bytes, total on any bytes: the event and the bytes after it (R94, R95: every event is one word). -/
def decodeBytes : List Byte → Except DecodeError (Instr × List Byte)
  | b3 :: b2 :: b1 :: b0 :: rest =>
    match decode (wordOfBytes b3 b2 b1 b0) with
    | .ok i => .ok (i, rest)
    | .error e => .error e
  | _ => .error .truncated

/-- The opcode of each event (R85). -/
def Instr.opcode : Instr → BitVec 5
  | .beginTx _ _ => 0x01#5
  | .enq _ _ => 0x02#5
  | .flush => 0x03#5
  | .endTx => 0x04#5
  | .tick => 0x08#5
  | .prepare => 0x09#5
  | .startread => 0x10#5
  | .stopread => 0x11#5
  | .regl => 0x12#5
  | .unregl => 0x13#5
  | .rx _ => 0x18#5
  | .timeout => 0x19#5
  | .pstop => 0x1A#5

/-- The operands at their places below the opcode: `pin` at bit 22 and `baud` at bit 0 (R84), `g` at bit 8 and `byte` at bit 0 (R82,
R83), zero for format N (R81). -/
def Instr.operandBits : Instr → Word
  | .beginTx baud pin => (pin.setWidth 32 <<< 22) + baud.setWidth 32
  | .enq byte g => ((BitVec.ofBool g).setWidth 32 <<< 8) + byte.setWidth 32
  | .rx byte => byte.setWidth 32
  | .flush => 0#32
  | .endTx => 0#32
  | .tick => 0#32
  | .prepare => 0#32
  | .startread => 0#32
  | .stopread => 0#32
  | .regl => 0#32
  | .unregl => 0#32
  | .timeout => 0#32
  | .pstop => 0#32

/-- The encoder: the opcode at bit 27 and the operands below it (R80 to R85). -/
def encode (i : Instr) : Word := (i.opcode.setWidth 32 <<< 27) + i.operandBits

/-- The event the decoder reads from a table word `w` of `nbits` bits: the word laid out most significant byte first, as R94 stores
it, and given to `decodeBytes`. Bits at and above `nbits` are zero; a number that is no 32-bit word is none. -/
def decodeTableWord (nbits w : Nat) : Option Instr :=
  if 2 ^ 32 ≤ w % 2 ^ nbits then none
  else
    match decodeBytes (bytesOfWord (BitVec.ofNat 32 (w % 2 ^ nbits))) with
    | .ok (i, _) => some i
    | .error _ => none

end Sys2Proof
end

