-- ==== Sys2Proof/Machine/State.lean ====
section
/-! DEFINITION. The state of the block as plain data (10_state R20 to R48), the reasons a step can stop, and the reset state
(70_reset_and_hazards R270). -/

namespace Sys2Proof.Machine

/-- The statuses of 30_encoding R89 that a result, a log or a notice can hold. -/
inductive Status where
  | ok
  | full
  | denied
  | unexpectedByte
  | badTrailer
  | labelTooLong
  | valueTooLong
  | checksumMismatch
  | timeout
  | unknownLabel
  | decodeError
  | frameComplete
  | alreadyEnded
  | stopped
  | released
deriving DecidableEq, Repr

/-- The fatal codes of 60_exceptions R231 that `fault` can latch. -/
inductive FatalCode where
  /-- 0xF0: TICK with cursor above 9. -/
  | cursorRange
  /-- 0xF1: REGL with a listener registered. -/
  | doubleListener
  /-- 0xF2: BEGIN while begun. -/
  | timerBinding
deriving DecidableEq, Repr

/-- The grant state `gs` (10_state R32). -/
inductive Grant where
  | none
  | requested
  | active
deriving DecidableEq, Repr

/-- The framing machine's state `pstate` (10_state R35). -/
inductive PState where
  | stopped
  | waitStart
  | groups
  | label
  | value
  | checksum
  | trailer
deriving DecidableEq, Repr

/-- The tariff options of 44_field_registry R206. -/
inductive Optarif where
  | BASE
  | HC
  | EJP
deriving DecidableEq, Repr

/-- The tariff periods of 44_field_registry R207. -/
inductive Ptec where
  | TH
  | HC
  | HP
  | HN
  | PM
deriving DecidableEq, Repr

/-- A decoded field value, tagged by its kind (10_state R40, 44_field_registry R214). -/
inductive FieldValue where
  | text (bytes : List Byte7)
  | uint (n : BitVec 64)
  | optarif (o : Optarif)
  | ptec (p : Ptec)
deriving DecidableEq, Repr

/-- One cell of the field store (10_state R40). -/
structure Cell where
  valid : Bool
  value : FieldValue
deriving DecidableEq, Repr

/-- A notification (30_encoding R91). -/
structure FieldChanged where
  fid   : Nat
  kind  : Kind
  value : FieldValue
deriving DecidableEq, Repr

/-- What the COOP variant says to the timeslot scheduler: the request and the three actions (30_encoding R90). -/
inductive SchedOut where
  | request (us : BitVec 32)
  | continue_
  | extend (us : BitVec 32)
  | end_
deriving DecidableEq, Repr

/-- A command whose issuer waits under `hold` (60_exceptions R244: only FLUSH and END of the SIMPLE variant hold). -/
inductive HeldCommand where
  | flush
  | endTx
deriving DecidableEq, Repr

/-- The event a held command is. -/
def HeldCommand.instr : HeldCommand → Instr
  | .flush => .flush
  | .endTx => .endTx

/-- A stuck step: the event is not enabled, so the spec gives it no step and no effect (93 U12, U13). Each is raised by the meaning of
the event it names. All are SAFE: the model stops where the agent would produce no such event. -/
inductive Fault where
  /-- TICK with `timer_run = 0` (41_tx_bit_engine R120). Safe. -/
  | tickTimerStopped
  /-- RX with the parser stopped or a stop requested (43_parser_framing R165). Safe. -/
  | rxNotReading
  /-- TIMEOUT with the parser stopped or a stop requested (43_parser_framing R173). Safe. -/
  | timeoutNotReading
  /-- PSTOP with no stop requested or the parser stopped (43_parser_framing R164). Safe. -/
  | pstopNotEnabled
deriving DecidableEq, Repr

/-- A refused event: the rules give it no meaning in the present state (60_exceptions R243). All are SAFE: "a model gives a refused
event no step and marks the run as refused, so that nothing can be proved of a run that contains one". -/
inductive Refusal where
  /-- An instruction with no meaning yet. Raised by `exec` alone. Safe. -/
  | notModelled (mnemonic : String)
  /-- An illegal event word (30_encoding R87, R88). Raised by `step`, and by PREPARE in SIMPLE. Safe. -/
  | illegalWord (e : DecodeError)
  /-- Any event while `fault /= 0` (60_exceptions R238). Raised by every meaning. Safe. -/
  | halted
  /-- ENQ, FLUSH or END while `begun = 0` (40_tx_host_commands R100). Safe. -/
  | notBegun
  /-- BEGIN with a baud rate of 0 (40_tx_host_commands R101). Safe. -/
  | baudZero
  /-- BEGIN with a baud rate above TIMER_HZ, whose bit period is 0 ticks (40_tx_host_commands R101). Safe. -/
  | baudAboveTimer
  /-- STARTREAD while the read loop runs (43_parser_framing R161). Safe. -/
  | alreadyReading
deriving DecidableEq, Repr

/-- The TX engine's state (10_state R20 to R33). -/
structure TxEngine where
  /-- R21, oldest byte first. -/
  q        : List Byte
  /-- R22. -/
  busy     : Bool
  /-- R23. -/
  cur      : Byte
  /-- R24. -/
  cursor   : BitVec 4
  /-- R25: the driven level, true is high. -/
  line     : Bool
  /-- R25. -/
  oe       : Bool
  /-- R26. -/
  timerRun : Bool
  /-- R27. -/
  begun    : Bool
  /-- R28. -/
  pin      : Pin
  /-- R29. -/
  baud     : Baud
  /-- R30. -/
  period   : BitVec 32
  /-- R31. -/
  slotUs   : BitVec 32
  /-- R32. -/
  gs       : Grant
  /-- R33, oldest level first. -/
  wire     : List Bool
deriving DecidableEq, Repr

/-- The parser engine's state (10_state R35 to R40). -/
structure ParserEngine where
  /-- R35. -/
  pstate   : PState
  /-- R36: the array LAB of 20_memory R60, LABEL_MAX bytes. -/
  lab      : List Byte7
  /-- R36. -/
  lablen   : BitVec 3
  /-- R37: the array VAL of 20_memory R60, VALUE_MAX bytes. -/
  val      : List Byte7
  /-- R37. -/
  vallen   : BitVec 4
  /-- R38. -/
  stopReq  : Bool
  /-- R39. -/
  listener : Bool
  /-- R40: one cell per row of REGISTRY, in the table's order. -/
  store    : List Cell
deriving DecidableEq, Repr

/-- The state of the block: the tuple of 10_state R20, and the model's own fields `params`, `port`, `held`, `schedLog` (log entries 4,
1, 3, 10). -/
structure State where
  /-- The model's: the parameters, fixed (00_scope R8). -/
  params    : Params
  tx        : TxEngine
  ps        : ParserEngine
  /-- R41: none is 0x00. -/
  fault     : Option FatalCode
  /-- R42. -/
  txResult  : Status
  /-- R42. -/
  pResult   : Status
  /-- R46. -/
  statusLog : List Status
  /-- R46. -/
  errLog    : List Status
  /-- R46. -/
  notifyLog : List FieldChanged
  /-- The model's: everything said to the scheduler, oldest first (30_encoding R90). -/
  schedLog  : List SchedOut
  /-- The model's: the command whose issuer waits (60_exceptions R244). -/
  held      : Option HeldCommand
  /-- The model's: event words presented and not yet taken, oldest first (20_memory R68, R73). -/
  port      : List Word
deriving DecidableEq, Repr

/-- The answer of a meaning. -/
abbrev Result := Host.Outcome State Fault Refusal

/-- What a step finds to do. -/
inductive Fetch where
  /-- No event presented, none of the block's own enabled. -/
  | idle
  /-- The presented word is illegal. -/
  | illegal (e : DecodeError)
  /-- The event to take, and the state once it has been taken off the port. -/
  | event (i : Instr) (s : State)
deriving DecidableEq, Repr

/-- The zero value of a kind: what an invalid cell holds at reset (70_reset_and_hazards R270). -/
def zeroValue : Kind → FieldValue
  | .text => .text []
  | .uint => .uint 0#64
  | .optarif => .optarif .BASE
  | .ptec => .ptec .TH

/-- The TX engine after reset (R270). -/
def TxEngine.reset : TxEngine :=
  { q := [], busy := false, cur := 0#8, cursor := 0#4, line := true, oe := false, timerRun := false, begun := false,
    pin := 0#5, baud := 0#22, period := 0#32, slotUs := 0#32, gs := .none, wire := [] }

/-- The parser engine after reset, with arrays of the parameters' sizes and one empty cell per registry row (R270). -/
def ParserEngine.resetOf (p : Params) : ParserEngine :=
  { pstate := .stopped, lab := List.replicate p.labelMax.val 0#7, lablen := 0#3,
    val := List.replicate p.valueMax.val 0#7, vallen := 0#4,
    stopReq := false, listener := false,
    store := p.registry.map fun r => { valid := false, value := zeroValue r.kind } }

/-- The block built with parameters `p`, right after reset (R270). The model's own fields are empty (log entries 1, 3, 10). -/
def State.resetOf (p : Params) : State :=
  { params := p, tx := TxEngine.reset, ps := ParserEngine.resetOf p, fault := none, txResult := .ok, pResult := .ok,
    statusLog := [], errLog := [], notifyLog := [], schedLog := [], held := none, port := [] }

/-- The machine right after reset, with the default parameters (log entry 4). -/
def State.reset : State := State.resetOf Params.default

end Sys2Proof.Machine
end

