-- ==== Sys2Proof/Machine/Operands.lean ====
section
/-! DEFINITION. What the rules compute from operands and from field bytes: the 7-bit mask, BEGIN's two quotients, the checksum, the
registry look-up and the four decoders. -/

namespace Sys2Proof.Machine

/-- `ceil_div(a, b) = (a + b - 1) div b` (00_scope R10). -/
def ceilDiv (a b : Nat) : Nat := (a + b - 1) / b

/-- `b7 = byte & 0x7F`: every byte read is masked before anything looks at it (43_parser_framing R163). -/
def mask7 (byte : Byte) : Byte7 := byte.extractLsb' 0 7

/-- `TIMER_HZ div baud`, the bit period in timer ticks, rounded toward zero (40_tx_host_commands R101). -/
def bitPeriod (p : Params) (baud : Baud) : Nat := p.timerHz.toNat / baud.toNat

/-- `ceil_div(10000000, baud) + TS_MARGIN_US`, the length of a timeslot request in microseconds (10_state R31,
40_tx_host_commands R101). -/
def slotLength (p : Params) (baud : Baud) : Nat := ceilDiv 10000000 baud.toNat + p.tsMarginUs.val

/-- The sum of a field's bytes as unsigned numbers. -/
def byteSum (bs : List Byte7) : Nat := (bs.map BitVec.toNat).sum

/-- `Checksum(L, V)`: `((0x20 + sum L + sum V) & 0x3F) + 0x20`, the mask before the addition (43_parser_framing R172,
90_conflicts C1 and C7). -/
def checksum (L V : List Byte7) : Byte :=
  BitVec.ofNat 8 ((0x20 + byteSum L + byteSum V) % 64 + 0x20)

/-- A received byte, as the 8-bit number the checksum is compared with (43_parser_framing R170). -/
def widen (b7 : Byte7) : Byte := b7.setWidth 8

/-- The row of REGISTRY whose label equals `L`, byte for byte, with its row number; `n` is the number of the first row looked at
(44_field_registry R202, R203). -/
def findFieldFrom (L : List Byte7) : Nat → List RegistryRow → Option (Nat × Kind)
  | _, [] => none
  | n, r :: rs => if r.label = L then some (n, r.kind) else findFieldFrom L (n + 1) rs

/-- The row number and kind of label `L` (44_field_registry R203). -/
def findField (registry : List RegistryRow) (L : List Byte7) : Option (Nat × Kind) := findFieldFrom L 0 registry

/-- An ASCII decimal digit, 0x30 to 0x39 (44_field_registry R205). -/
def isDigit (b : Byte7) : Bool := decide (0x30 ≤ b.toNat) && decide (b.toNat ≤ 0x39)

/-- `n <- n * 10 + (V[i] - 0x30)` over the bytes, most significant digit first (44_field_registry R205). -/
def digitsValue : Nat → List Byte7 → Nat
  | n, [] => n
  | n, b :: bs => digitsValue (n * 10 + (b.toNat - 0x30)) bs

/-- `Decode(uint, V)` (44_field_registry R205). -/
def decodeUint (V : List Byte7) : Option (BitVec 64) :=
  if V = [] then none
  else if V.all isDigit then some (BitVec.ofNat 64 (digitsValue 0 V))
  else none

/-- `V` with every trailing '.' (0x2E) removed (44_field_registry R206, R207). -/
def stripDots : List Byte7 → List Byte7
  | [] => []
  | b :: bs => if stripDots bs = [] ∧ b = 0x2E#7 then [] else b :: stripDots bs

/-- `Decode(optarif, V)` (44_field_registry R206). -/
def decodeOptarif (V : List Byte7) : Option Optarif :=
  if stripDots V = Config.ascii ['B', 'A', 'S', 'E'] then some .BASE
  else if stripDots V = Config.ascii ['H', 'C'] then some .HC
  else if stripDots V = Config.ascii ['E', 'J', 'P'] then some .EJP
  else none

/-- `Decode(ptec, V)` (44_field_registry R207). -/
def decodePtec (V : List Byte7) : Option Ptec :=
  if stripDots V = Config.ascii ['T', 'H'] then some .TH
  else if stripDots V = Config.ascii ['H', 'C'] then some .HC
  else if stripDots V = Config.ascii ['H', 'P'] then some .HP
  else if stripDots V = Config.ascii ['H', 'N'] then some .HN
  else if stripDots V = Config.ascii ['P', 'M'] then some .PM
  else none

/-- `Decode(kind, V)`; none is the spec's `error` (44_field_registry R202, R204 to R207, R210). -/
def decodeField : Kind → List Byte7 → Option FieldValue
  | .text, V => some (.text V)
  | .uint, V => (decodeUint V).map .uint
  | .optarif, V => (decodeOptarif V).map .optarif
  | .ptec, V => (decodePtec V).map .ptec

/-- The number of a tariff option (44_field_registry R206). -/
def Optarif.number : Optarif → Nat
  | .BASE => 0
  | .HC => 1
  | .EJP => 2

/-- The number of a tariff period (44_field_registry R207). -/
def Ptec.number : Ptec → Nat
  | .TH => 0
  | .HC => 1
  | .HP => 2
  | .HN => 3
  | .PM => 4

/-- The kind a value is tagged with (44_field_registry R214). -/
def FieldValue.kind : FieldValue → Kind
  | .text _ => .text
  | .uint _ => .uint
  | .optarif _ => .optarif
  | .ptec _ => .ptec

end Sys2Proof.Machine
end

