-- ==== Sys2Proof/Machine/Flags.lean ====
section
/-! DEFINITION. The derived flags and enabling conditions (10_state R43, 60_exceptions R240), and the codes and classes of statuses,
actions and fatal faults (30_encoding R89, R90, 60_exceptions R230). -/

namespace Sys2Proof.Machine

/-- `halted = (fault /= 0)` (10_state R43). -/
def State.halted (s : State) : Bool := s.fault.isSome

/-- `q_empty = (|q| = 0)` (10_state R43). -/
def State.qEmpty (s : State) : Bool := s.tx.q.isEmpty

/-- `q_full = (|q| = QCAP)` (10_state R43). A queue above its capacity, which no rule produces, is full too. -/
def State.qFull (s : State) : Bool := decide (s.params.qcap ≤ s.tx.q.length)

/-- `idle = (busy = 0)` (10_state R43). -/
def State.idle (s : State) : Bool := !s.tx.busy

/-- `running = (pstate /= STOPPED)` (10_state R43). -/
def State.running (s : State) : Bool := s.ps.pstate != .stopped

/-- The parser is reading: the condition that enables RX and TIMEOUT beside `fault = 0` (43_parser_framing R165, R173). -/
def State.reading (s : State) : Bool := s.running && !s.ps.stopReq

/-- PSTOP is enabled (43_parser_framing R164). -/
def State.pstopEnabled (s : State) : Bool := s.ps.stopReq && s.running && !s.halted

/-- TICK is enabled (41_tx_bit_engine R120). -/
def State.tickEnabled (s : State) : Bool := s.tx.timerRun && !s.halted

/-- RX and TIMEOUT are enabled (43_parser_framing R165, R173). -/
def State.readEnabled (s : State) : Bool := s.reading && !s.halted

/-- PREPARE is expected: a request was accepted and its window has not begun (60_exceptions R240). -/
def State.prepareExpected (s : State) : Bool := s.tx.gs == .requested && !s.halted

/-- The block is built as the SIMPLE variant (00_scope R3). -/
def State.isSimple (s : State) : Bool := s.params.variant == .simple

/-- The status codes (30_encoding R89). -/
def Status.code : Status → BitVec 8
  | .ok => 0x00#8
  | .full => 0x01#8
  | .denied => 0x02#8
  | .unexpectedByte => 0x10#8
  | .badTrailer => 0x11#8
  | .labelTooLong => 0x12#8
  | .valueTooLong => 0x13#8
  | .checksumMismatch => 0x14#8
  | .timeout => 0x15#8
  | .unknownLabel => 0x16#8
  | .decodeError => 0x17#8
  | .frameComplete => 0x20#8
  | .alreadyEnded => 0x21#8
  | .stopped => 0x22#8
  | .released => 0x23#8

/-- The fatal codes (30_encoding R89, 60_exceptions R231). -/
def FatalCode.code : FatalCode → BitVec 8
  | .cursorRange => 0xF0#8
  | .doubleListener => 0xF1#8
  | .timerBinding => 0xF2#8

/-- The `fault` register as its 8 bits (10_state R41). -/
def State.faultCode (s : State) : BitVec 8 :=
  match s.fault with
  | none => 0x00#8
  | some c => c.code

/-- A notice, a non-error status (30_encoding R89, 00_scope R15). -/
def Status.isNotice (s : Status) : Bool := s.code.extractLsb' 4 4 == 0x2#4

/-- The meaning a non-fatal status has in the source's taxonomy (60_exceptions R230, 30_encoding R89, 43_parser_framing R176). -/
inductive StatusClass where
  | success
  | resourceExhaustion
  | protocolViolation
  | integrityFailure
  | timeout
  | reportedNotFatal
  | notice
deriving DecidableEq, Repr

/-- The class of each status (30_encoding R89). -/
def Status.statusClass : Status → StatusClass
  | .ok => .success
  | .full => .resourceExhaustion
  | .denied => .resourceExhaustion
  | .unexpectedByte => .protocolViolation
  | .badTrailer => .protocolViolation
  | .labelTooLong => .protocolViolation
  | .valueTooLong => .protocolViolation
  | .checksumMismatch => .integrityFailure
  | .timeout => .timeout
  | .unknownLabel => .reportedNotFatal
  | .decodeError => .reportedNotFatal
  | .frameComplete => .notice
  | .alreadyEnded => .notice
  | .stopped => .notice
  | .released => .notice

/-- The action codes TS_CONTINUE 0, TS_EXTEND 1, TS_END 2; a request is a record of its own (30_encoding R90). -/
def SchedOut.actionCode : SchedOut → Option Nat
  | .continue_ => some 0
  | .extend _ => some 1
  | .end_ => some 2
  | .request _ => none

/-- The numbers of `gs` (10_state R32). -/
def Grant.number : Grant → BitVec 2
  | .none => 0#2
  | .requested => 1#2
  | .active => 2#2

/-- The numbers of `pstate` (10_state R35). -/
def PState.number : PState → BitVec 3
  | .stopped => 0#3
  | .waitStart => 1#3
  | .groups => 2#3
  | .label => 3#3
  | .value => 4#3
  | .checksum => 5#3
  | .trailer => 6#3

end Sys2Proof.Machine
end

