-- ==== Sys2Proof/Machine/Ops.lean ====
section
/-! DEFINITION. The shared operations: the queue, the line, the field buffers, the logs, the scheduler's port, the fatal latch, `hold`,
`refuse` while halted, and reset (00_scope R11 and the rules cited at each). -/

namespace Sys2Proof.Machine

/-! ### The transmit queue and the line -/

/-- The queue with one byte more, behind the others (20_memory R62). -/
def TxEngine.append (b : Byte) (t : TxEngine) : TxEngine := { t with q := t.q ++ [b] }

/-- `Push(b)` on a queue of capacity `qcap`: none is `full`, and then nothing is written (20_memory R62). -/
def TxEngine.push (qcap : Nat) (b : Byte) (t : TxEngine) : Option TxEngine :=
  if qcap ≤ t.q.length then none else some (t.append b)

/-- `Pop()`: the oldest byte and the queue without it; none on an empty queue, on which no rule performs it (20_memory R63). -/
def TxEngine.pop (t : TxEngine) : Option (Byte × TxEngine) :=
  match t.q with
  | [] => none
  | b :: rest => some (b, { t with q := rest })

/-- `Drive(l)`: the line takes the level and the wire trace records it (10_state R33). -/
def TxEngine.drive (l : Bool) (t : TxEngine) : TxEngine := { t with line := l, wire := t.wire ++ [l] }

/-- `StartByte()`: take the next byte and begin its start bit (40_tx_host_commands R103). It requires a non-empty queue; on an empty
one, on which no rule performs it, nothing changes (log entry 16). -/
def TxEngine.startByte (t : TxEngine) : TxEngine :=
  match t.pop with
  | none => t
  | some (b, t') => TxEngine.drive false { t' with cur := b, cursor := 0#4 }

/-! ### The label and value buffers -/

/-- `MemWrite(LAB, lablen, 1, b)` and `lablen <- lablen + 1` (43_parser_framing R168, 20_memory R74). -/
def ParserEngine.appendLabel (b : Byte7) (p : ParserEngine) : ParserEngine :=
  { p with lab := p.lab.set p.lablen.toNat b, lablen := p.lablen + 1#3 }

/-- `MemWrite(VAL, vallen, 1, b)` and `vallen <- vallen + 1` (43_parser_framing R169, 20_memory R74). -/
def ParserEngine.appendValue (b : Byte7) (p : ParserEngine) : ParserEngine :=
  { p with val := p.val.set p.vallen.toNat b, vallen := p.vallen + 1#4 }

/-- `lab[0 .. lablen-1]`, in arrival order (10_state R36, 20_memory R65). -/
def ParserEngine.label (p : ParserEngine) : List Byte7 := p.lab.take p.lablen.toNat

/-- `val[0 .. vallen-1]`, in arrival order (10_state R37, 20_memory R65). -/
def ParserEngine.value (p : ParserEngine) : List Byte7 := p.val.take p.vallen.toNat

/-- The cell of row `fid`. A row without a cell, which no rule produces, reads as the reset cell of its kind (log entry 16). -/
def ParserEngine.cell (p : ParserEngine) (fid : Nat) (kind : Kind) : Cell :=
  p.store.getD fid { valid := false, value := zeroValue kind }

/-! ### Logs, notices, notifications, the scheduler -/

/-- `Log(s)` (10_state R46, 60_exceptions R252). -/
def State.log (e : Status) (s : State) : State := { s with errLog := s.errLog ++ [e] }

/-- `Note(s)` (10_state R46). -/
def State.note (n : Status) (s : State) : State := { s with statusLog := s.statusLog ++ [n] }

/-- `Report(s)`: logged, and returned to the read loop (43_parser_framing R165, 60_exceptions R239). -/
def State.report (e : Status) (s : State) : State := (s.log e).note e

/-- `Notify(r)` (44_field_registry R212). -/
def State.notify (r : FieldChanged) (s : State) : State := { s with notifyLog := s.notifyLog ++ [r] }

/-- A request or an action goes to the scheduler (30_encoding R90). -/
def State.emit (o : SchedOut) (s : State) : State := { s with schedLog := s.schedLog ++ [o] }

/-- The action a callback returns: in the SIMPLE variant it returns nothing (30_encoding R90, 41_tx_bit_engine R120). -/
def State.answer (o : SchedOut) (s : State) : State := if s.isSimple then s else s.emit o

/-- The parser goes to another state of the framing machine. -/
def State.goto (q : PState) (s : State) : State := { s with ps := { s.ps with pstate := q } }

/-- `Abort(s)`: report, drop group and frame, go to WAITSTART; lengths, buffers and store stay (43_parser_framing R174). -/
def State.abort (e : Status) (s : State) : State := (s.report e).goto .waitStart

/-! ### Fatal faults, refusals, holds, reset -/

/-- `raise Fatal(c)`: latch the first code, write nothing else (60_exceptions R238). -/
def State.latch (c : FatalCode) (s : State) : State :=
  match s.fault with
  | none => { s with fault := some c }
  | some _ => s

/-- Taking the fatal fault `c`: a next state, in which every event is refused (60_exceptions R238). There is no return (R257). -/
def raiseFatal (c : FatalCode) (s : State) : Result := .next (s.latch c)

/-- Every event is refused while `fault /= 0` (60_exceptions R238, R243). -/
def unlessHalted (s : State) (r : Result) : Result := if s.halted then .refused .halted else r

/-- ENQ, FLUSH and END are refused while `begun = 0`; the fault test comes first (40_tx_host_commands R100, 60_exceptions R242). -/
def whenBegun (s : State) (r : Result) : Result :=
  unlessHalted s (if s.tx.begun then r else .refused .notBegun)

/-- `hold`: the command waits; nothing of the block changes (60_exceptions R244). Log entry 3. -/
def holdCommand (c : HeldCommand) (s : State) : Result := .next { s with held := some c }

/-- The reset input: every element of R270 to its reset value at once, in any state (70_reset_and_hazards R271). The parameters never
change (R272), and the words presented and not yet taken are the outside's (log entry 19). -/
def State.applyReset (s : State) : State := { State.resetOf s.params with port := s.port }

end Sys2Proof.Machine
end

