-- ==== Sys2Proof/Machine/Registry.lean ====
section
/-! DEFINITION. The field registry: the listener events REGL and UNREGL, and `Dispatch` (44_field_registry). -/

namespace Sys2Proof.Machine

/-- `store[f] <- {valid = 1, value = d}` (44_field_registry R202, R208). -/
def State.setField (fid : Nat) (d : FieldValue) (s : State) : State :=
  { s with ps := { s.ps with store := s.ps.store.set fid { valid := true, value := d } } }

/-- The stored value is valid and equal to `d`: no change to report (44_field_registry R208). -/
def State.holdsField (fid : Nat) (d : FieldValue) (s : State) : Bool :=
  (s.ps.cell fid d.kind).valid && (s.ps.cell fid d.kind).value == d

/-- `if listener = 1: Notify(FieldChanged(fid, kind, d))` (44_field_registry R202, R212). -/
def State.notifyChange (fid : Nat) (kind : Kind) (d : FieldValue) (s : State) : State :=
  if s.ps.listener then s.notify { fid := fid, kind := kind, value := d } else s

/-- `Dispatch(L, V)` (44_field_registry R202, R208 to R210). -/
def dispatch (L V : List Byte7) (s : State) : State :=
  match findField s.params.registry L with
  | none => s.report .unknownLabel
  | some (fid, kind) =>
    match decodeField kind V with
    | none => s.report .decodeError
    | some d => if s.holdsField fid d then s else (s.setField fid d).notifyChange fid kind d

/-- REGL (44_field_registry R200). -/
def execRegl (s : State) : Result :=
  unlessHalted s <|
    if s.ps.listener then raiseFatal .doubleListener s
    else .next { s with ps := { s.ps with listener := true }, pResult := .ok }

/-- UNREGL (44_field_registry R201). -/
def execUnregl (s : State) : Result :=
  unlessHalted s <| .next { s with ps := { s.ps with listener := false }, pResult := .ok }

end Sys2Proof.Machine
end

