-- ==== Sys2Proof/Machine/Parser.lean ====
section
/-! DEFINITION. The parser engine's framing machine: STARTREAD, STOPREAD, PSTOP, RX, TIMEOUT (43_parser_framing). -/

namespace Sys2Proof.Machine

/-- STARTREAD (43_parser_framing R161). -/
def execStartread (s : State) : Result :=
  unlessHalted s <|
    if s.running then .refused .alreadyReading
    else .next { s with ps := { s.ps with pstate := .waitStart, stopReq := false }, pResult := .ok }

/-- STOPREAD (43_parser_framing R162). -/
def execStopread (s : State) : Result :=
  unlessHalted s <|
    .next { s with ps := { s.ps with stopReq := s.ps.stopReq || s.running }, pResult := .ok }

/-- PSTOP (43_parser_framing R164). -/
def execPstop (s : State) : Result :=
  unlessHalted s <|
    if s.ps.stopReq && s.running then
      .next ({ s with ps := { s.ps with pstate := .stopped, stopReq := false } }.note .stopped)
    else .fault .pstopNotEnabled

/-- RX in WAITSTART (43_parser_framing R166). EOT is a parameter (00_scope R9, 93 G1). -/
def rxWaitStart (b7 : Byte7) (s : State) : State :=
  if b7 = Config.STX then s.goto .groups
  else if b7 = Config.ETX ∨ b7 = s.params.eot then s.note .alreadyEnded
  else s

/-- RX in GROUPS (43_parser_framing R167). EOT is a parameter (00_scope R9, 93 G1). -/
def rxGroups (b7 : Byte7) (s : State) : State :=
  if b7 = Config.LF then { s with ps := { s.ps with lablen := 0#3, vallen := 0#4, pstate := .label } }
  else if b7 = Config.ETX ∨ b7 = s.params.eot then (s.note .frameComplete).goto .waitStart
  else s.abort .unexpectedByte

/-- RX in LABEL (43_parser_framing R168). -/
def rxLabel (b7 : Byte7) (s : State) : State :=
  if b7 = Config.SP then s.goto .value
  else if s.ps.lablen.toNat < s.params.labelMax.val then { s with ps := s.ps.appendLabel b7 }
  else s.abort .labelTooLong

/-- RX in VALUE (43_parser_framing R169). -/
def rxValue (b7 : Byte7) (s : State) : State :=
  if b7 = Config.SP then s.goto .checksum
  else if s.ps.vallen.toNat < s.params.valueMax.val then { s with ps := s.ps.appendValue b7 }
  else s.abort .valueTooLong

/-- RX in CHECKSUM (43_parser_framing R170). -/
def rxChecksum (b7 : Byte7) (s : State) : State :=
  if widen b7 = checksum s.ps.label s.ps.value then s.goto .trailer
  else s.abort .checksumMismatch

/-- RX in TRAILER (43_parser_framing R171). -/
def rxTrailer (b7 : Byte7) (s : State) : State :=
  if b7 = Config.CR then (dispatch s.ps.label s.ps.value s).goto .groups
  else s.abort .badTrailer

/-- The six reading states (43_parser_framing R165). In STOPPED nothing is read. -/
def rxByte (b7 : Byte7) (s : State) : State :=
  match s.ps.pstate with
  | .stopped => s
  | .waitStart => rxWaitStart b7 s
  | .groups => rxGroups b7 s
  | .label => rxLabel b7 s
  | .value => rxValue b7 s
  | .checksum => rxChecksum b7 s
  | .trailer => rxTrailer b7 s

/-- RX (43_parser_framing R163, R165). -/
def execRx (byte : Byte) (s : State) : Result :=
  unlessHalted s <|
    if s.reading then .next (rxByte (mask7 byte) s) else .fault .rxNotReading

/-- TIMEOUT (43_parser_framing R173). -/
def execTimeout (s : State) : Result :=
  unlessHalted s <|
    if s.reading then .next (s.abort .timeout) else .fault .timeoutNotReading

end Sys2Proof.Machine
end

