-- ==== Sys2Proof/Machine/TxBit.lean ====
section
/-! DEFINITION. The TX engine's bit engine, the TICK event (41_tx_bit_engine). -/

namespace Sys2Proof.Machine

/-- TICK with `cursor` 0 to 7: drive bit `cursor` of the current byte, least significant first (41_tx_bit_engine R121). -/
def TxEngine.dataBit (t : TxEngine) : TxEngine :=
  { t.drive (t.cur.getLsbD t.cursor.toNat) with cursor := t.cursor + 1#4 }

/-- TICK with `cursor = 8`: drive the stop bit (41_tx_bit_engine R122). -/
def TxEngine.stopBit (t : TxEngine) : TxEngine := { t.drive true with cursor := 9#4 }

/-- TICK with `cursor = 9` and an empty queue: stop the timer, idle, no grant; the line stays (41_tx_bit_engine R124,
42_tx_timeslot R146). -/
def TxEngine.goIdle (coop : Bool) (t : TxEngine) : TxEngine :=
  { t with cursor := 0#4, timerRun := false, busy := false, gs := if coop then .none else t.gs }

/-- The five cases of an enabled TICK (41_tx_bit_engine R120 to R125, 42_tx_timeslot R144 to R146). -/
def tickCases (s : State) : Result :=
  if s.tx.cursor ≤ 7#4 then .next { s.answer .continue_ with tx := s.tx.dataBit }
  else if s.tx.cursor = 8#4 then .next { s.answer .continue_ with tx := s.tx.stopBit }
  else if s.tx.cursor = 9#4 then
    if s.tx.q = [] then .next { s.answer .end_ with tx := s.tx.goIdle (!s.isSimple) }
    else .next { s.answer (.extend s.tx.slotUs) with tx := s.tx.startByte }
  else raiseFatal .cursorRange s

/-- TICK (41_tx_bit_engine R120). -/
def execTick (s : State) : Result :=
  unlessHalted s <|
    if s.tx.timerRun then tickCases s else .fault .tickTimerStopped

end Sys2Proof.Machine
end

