-- ==== Sys2Proof/Machine/TxHost.lean ====
section
/-! DEFINITION. The TX engine's host commands BEGIN, ENQ, FLUSH, END (40_tx_host_commands). -/

namespace Sys2Proof.Machine

/-- The TX engine as BEGIN leaves it (40_tx_host_commands R101). -/
def TxEngine.configure (p : Params) (baud : Baud) (pin : Pin) (t : TxEngine) : TxEngine :=
  { t with
    baud := baud
    pin := pin
    period := BitVec.ofNat 32 (bitPeriod p baud)
    slotUs := BitVec.ofNat 32 (slotLength p baud)
    oe := true
    line := true
    begun := true }

/-- BEGIN (40_tx_host_commands R101). -/
def execBegin (baud : Baud) (pin : Pin) (s : State) : Result :=
  unlessHalted s <|
    if s.tx.begun then raiseFatal .timerBinding s
    else if baud = 0#22 then .refused .baudZero
    else if bitPeriod s.params baud = 0 then .refused .baudAboveTimer
    else .next { s with tx := s.tx.configure s.params baud pin, txResult := .ok }

/-- The start of a transmission in SIMPLE: the byte is taken, its start bit driven, the bit timer started
(40_tx_host_commands R102, 41_tx_bit_engine R128). -/
def TxEngine.startSimple (t : TxEngine) : TxEngine := { t.startByte with timerRun := true, busy := true }

/-- ENQ after a successful push onto the engine `t`, idle: start (SIMPLE), or request a window with answer `g` (COOP)
(40_tx_host_commands R102, 42_tx_timeslot R141, R142). -/
def enqFromIdle (t : TxEngine) (g : Bool) (s : State) : Result :=
  if s.isSimple then
    .next { s with tx := t.startSimple, txResult := .ok }
  else if g then
    .next { s.emit (.request t.slotUs) with tx := { t with busy := true, gs := .requested }, txResult := .ok }
  else
    .next { (s.emit (.request t.slotUs)).log .denied with tx := t, txResult := .denied }

/-- ENQ (40_tx_host_commands R102). -/
def execEnq (byte : Byte) (g : Bool) (s : State) : Result :=
  whenBegun s <|
    match s.tx.push s.params.qcap byte with
    | none => .next { s.log .full with txResult := .full }
    | some t =>
      if s.tx.busy then .next { s with tx := t, txResult := .ok }
      else enqFromIdle t g s

/-- FLUSH (40_tx_host_commands R104). -/
def execFlush (s : State) : Result :=
  whenBegun s <|
    if s.isSimple && s.tx.busy then holdCommand .flush s
    else .next { s with txResult := .ok }

/-- The TX engine as END leaves it in COOP: queue discarded, timer stopped, grant given up, line high without a Drive
(40_tx_host_commands R105, 42_tx_timeslot R150). -/
def TxEngine.abandon (t : TxEngine) : TxEngine :=
  { t with q := [], busy := false, cursor := 0#4, timerRun := false, gs := .none, line := true, begun := false }

/-- The notice RELEASED, given when END finds a grant or an accepted request (40_tx_host_commands R105). -/
def State.noteReleased (s : State) : State := if s.tx.gs = .none then s else s.note .released

/-- END (40_tx_host_commands R105). -/
def execEnd (s : State) : Result :=
  whenBegun s <|
    if s.isSimple then
      if s.tx.busy then holdCommand .endTx s
      else .next { s with tx := { s.tx with begun := false }, txResult := .ok }
    else .next { s.noteReleased with tx := s.tx.abandon, txResult := .ok }

end Sys2Proof.Machine
end

