-- ==== Sys2Proof/Machine/TxSlot.lean ====
section
/-! DEFINITION. The TX engine's timeslot grant machine, the PREPARE event (42_tx_timeslot). -/

namespace Sys2Proof.Machine

/-- The TX engine at the start of a granted window: byte taken, start bit driven, bit timer started (42_tx_timeslot R143). -/
def TxEngine.openWindow (t : TxEngine) : TxEngine := { t.startByte with gs := .active, timerRun := true }

/-- PREPARE with `gs = REQUESTED` (42_tx_timeslot R143). -/
def prepareRequested (s : State) : Result :=
  if s.tx.q = [] then .next { s.emit .end_ with tx := { s.tx with gs := .none, busy := false } }
  else .next { s.emit .continue_ with tx := s.tx.openWindow }

/-- PREPARE (42_tx_timeslot R143, R147); in SIMPLE the word is illegal (30_encoding R88). -/
def execPrepare (s : State) : Result :=
  unlessHalted s <|
    if s.isSimple then .refused (.illegalWord .notInVariant)
    else if s.tx.gs = .requested then prepareRequested s
    else .next (s.emit .end_)

end Sys2Proof.Machine
end

