-- ==== Sys2Proof/Machine/Dispatch.lean ====
section
/-! DEFINITION. One arm per event: the meaning each of the thirteen events has. -/

namespace Sys2Proof.Machine

open Host

def exec (i : Instr) (s : State) : Host.Outcome State Fault Refusal :=
  match i with
  | .beginTx baud pin => Sys2Proof.Machine.execBegin baud pin s
  | .enq byte g => Sys2Proof.Machine.execEnq byte g s
  | .flush => Sys2Proof.Machine.execFlush s
  | .endTx => Sys2Proof.Machine.execEnd s
  | .tick => Sys2Proof.Machine.execTick s
  | .prepare => Sys2Proof.Machine.execPrepare s
  | .startread => Sys2Proof.Machine.execStartread s
  | .stopread => Sys2Proof.Machine.execStopread s
  | .regl => Sys2Proof.Machine.execRegl s
  | .unregl => Sys2Proof.Machine.execUnregl s
  | .rx byte => Sys2Proof.Machine.execRx byte s
  | .timeout => Sys2Proof.Machine.execTimeout s
  | .pstop => Sys2Proof.Machine.execPstop s

end Sys2Proof.Machine
end

