-- ==== Sys2Proof/Machine/Port.lean ====
section
/-! DEFINITION. The event port: which presented word is taken next, the agents and contexts events come from, and the block's own move
(00_scope R14, 20_memory R69, R73, 60_exceptions R244, R253). -/

namespace Sys2Proof.Machine

/-- The agents that can cause a step (00_scope R14). -/
inductive Agent where
  | hostForeground
  | hostInterrupt
  | bitTimer
  | scheduler
  | byteSource
  | clock
  | parserItself
deriving DecidableEq, Repr

/-- The agents an event can come from (00_scope R14). -/
def agentsOf : Instr → List Agent
  | .beginTx _ _ => [.hostForeground]
  | .enq _ _ => [.hostForeground, .hostInterrupt]
  | .flush => [.hostForeground]
  | .endTx => [.hostForeground]
  | .tick => [.bitTimer]
  | .prepare => [.scheduler]
  | .startread => [.hostForeground]
  | .stopread => [.hostForeground]
  | .regl => [.hostForeground]
  | .unregl => [.hostForeground]
  | .rx _ => [.byteSource]
  | .timeout => [.clock]
  | .pstop => [.parserItself]

/-- The events that only the foreground issues (60_exceptions R253): while its FLUSH or END is held it "waits and issues nothing else"
(R244). STOPREAD, REGL and UNREGL can come from an interrupt context (70_reset_and_hazards R282). DEDUCED, log entry 12. -/
def foregroundOnly : Instr → Bool
  | .beginTx _ _ => true
  | .flush => true
  | .endTx => true
  | .startread => true
  | .enq _ _ => false
  | .tick => false
  | .prepare => false
  | .stopread => false
  | .regl => false
  | .unregl => false
  | .rx _ => false
  | .timeout => false
  | .pstop => false

/-- A word whose event only the foreground issues. -/
def foregroundWord (w : Word) : Bool :=
  match decode w with
  | .ok i => foregroundOnly i
  | .error _ => false

/-- The next word to take and the words that stay: the oldest one, or, while the foreground waits, the oldest one that is not the
foreground's (20_memory R73, 60_exceptions R244). -/
def takeWord (waiting : Bool) : List Word → Option (Word × List Word)
  | [] => none
  | w :: ws =>
    if waiting && foregroundWord w then
      match takeWord waiting ws with
      | none => none
      | some (x, rest) => some (x, w :: rest)
    else some (w, ws)

/-- The event on the port, or the block's own move PSTOP when the port has none for it (43_parser_framing R164; log entry 2). -/
def fetchPort (s : State) : Fetch :=
  match takeWord s.held.isSome s.port with
  | none => if s.pstopEnabled then .event .pstop s else .idle
  | some (w, rest) =>
    match decodeFor s.params.variant w with
    | .ok i => .event i { s with port := rest }
    | .error e => .illegal e

/-- What the next step does. A held command happens "in the first state in which C is true", C being `busy = 0` (60_exceptions R244);
otherwise the port decides. -/
def fetch (s : State) : Fetch :=
  match s.held with
  | some c => if s.tx.busy then fetchPort s else .event c.instr { s with held := none }
  | none => fetchPort s

end Sys2Proof.Machine
end

