-- ==== Sys2Proof/Machine/Step.lean ====
section
/-! DEFINITION. One step of the machine: one event (20_memory R69), or waiting for one. -/

namespace Sys2Proof.Machine

/-- A step takes the next event and runs it; an illegal word is refused (30_encoding R87); with nothing to take the block waits
(70_reset_and_hazards R270: "the block takes no event until one is given"; log entry 1). -/
def step (s : State) : Host.Outcome State Fault Refusal :=
  match fetch s with
  | .idle => .next s
  | .illegal e => .refused (.illegalWord e)
  | .event i s' => exec i s'

/-- `s` with the event word `w` of `nbits` bits presented as the very next event: it stands first on the port, and no waiting command
comes before it (log entry 1). -/
def State.withFetchWord (s : State) (nbits w : Nat) : State :=
  { s with port := BitVec.ofNat 32 (w % 2 ^ nbits) :: s.port, held := none }

end Sys2Proof.Machine
end

