-- ==== Sys2Proof/Machine/Ports.lean ====
section
/-! DEFINITION. What the agents outside the block see of it: views of the state, not state (60_exceptions R240, R245 to R248). -/

namespace Sys2Proof.Machine

/-- The hardware timer capability as the block drives it (60_exceptions R245): running, its compare value, and whether its
compare-match interrupt is enabled, which coincides with `begun` (R240). -/
structure TimerPort where
  running          : Bool
  compare          : BitVec 32
  interruptEnabled : Bool
deriving DecidableEq, Repr

/-- The bit timer's control (60_exceptions R245, R254). -/
def State.timerPort (s : State) : TimerPort :=
  { running := s.tx.timerRun, compare := s.tx.period, interruptEnabled := s.tx.begun }

/-- The general-purpose output capability as the block drives it (60_exceptions R246). -/
structure PinPort where
  pin    : Pin
  output : Bool
  level  : Bool
deriving DecidableEq, Repr

/-- The output pin's direction and level (60_exceptions R246, 10_state R25). -/
def State.pinPort (s : State) : PinPort := { pin := s.tx.pin, output := s.tx.oe, level := s.tx.line }

/-- The level on the wire: none while the block does not drive the pin, where the spec defines no level (10_state R25, 93 U23). -/
def State.pinLevel (s : State) : Option Bool := if s.tx.oe then some s.tx.line else none

/-- The methods of the injected capability object (60_exceptions R247). -/
inductive TickMethod where
  | onCompareMatch
  | onTimeslotTick
deriving DecidableEq, Repr

/-- The method by which a TICK is delivered (60_exceptions R247). -/
def tickMethod : Variant → TickMethod
  | .simple => .onCompareMatch
  | .coop => .onTimeslotTick

/-- What a status read by the host sees between two events (10_state R43). -/
structure StatusView where
  qEmpty   : Bool
  qFull    : Bool
  idle     : Bool
  running  : Bool
  halted   : Bool
  busy     : Bool
  begun    : Bool
  timerRun : Bool
  stopReq  : Bool
  listener : Bool
deriving DecidableEq, Repr

/-- The derived flags and the stored flags of R43. -/
def State.statusView (s : State) : StatusView :=
  { qEmpty := s.qEmpty, qFull := s.qFull, idle := s.idle, running := s.running, halted := s.halted, busy := s.tx.busy,
    begun := s.tx.begun, timerRun := s.tx.timerRun, stopReq := s.ps.stopReq, listener := s.ps.listener }

/-- The one named callback of the source: `hubAddrChanged(text)` is the notification of field 0 (30_encoding R91,
44_field_registry R212). -/
def hubAddrChanged (text : List Byte7) : FieldChanged := { fid := 0, kind := .text, value := .text text }

end Sys2Proof.Machine
end

