-- ==== Sys2Proof/Machine/Run.lean ====
section
/-! DEFINITION. Runs of events: the events of a list taken one after another, and the shorthands of 30_encoding R93. -/

namespace Sys2Proof.Machine

/-- The events taken in order, stopping at the first fault or refusal (20_memory R69). -/
def execAll : List Instr → State → Result
  | [], s => .next s
  | i :: is, s =>
    match exec i s with
    | .next s' => execAll is s'
    | .fault r => .fault r
    | .refused r => .refused r

/-- `TICKS n` (30_encoding R93). -/
def ticks (n : Nat) : List Instr := List.replicate n .tick

/-- `SEND "s"` with answer `g` (30_encoding R93). -/
def send (g : Bool) (bytes : List Byte) : List Instr := bytes.map fun b => .enq b g

/-- `RXS "s"` (30_encoding R93). -/
def rxs (bytes : List Byte) : List Instr := bytes.map .rx

/-- The ten levels of one byte on the wire: start, eight data bits least significant first, stop (41_tx_bit_engine R126). -/
def byteLevels (b : Byte) : List Bool :=
  [false, b.getLsbD 0, b.getLsbD 1, b.getLsbD 2, b.getLsbD 3, b.getLsbD 4, b.getLsbD 5, b.getLsbD 6, b.getLsbD 7, true]

/-- An Info Group as the bytes of the stream: `LF label SP value SP checksum CR` (43_parser_framing R175). -/
def groupBytes (L V : List Byte7) : List Byte :=
  (Config.LF :: L ++ Config.SP :: V).map widen ++ [widen Config.SP, checksum L V, widen Config.CR]

end Sys2Proof.Machine
end

