-- ==== Sys2Proof/Machine/Trace.lean ====
section
/-! DEFINITION. The trace syntax of 30_encoding R92 and R93: an event written as a line, and a line read as the events it stands for. -/

namespace Sys2Proof.Machine

/-- A number written in decimal (R92). -/
def showNat (n : Nat) : List Char := Nat.toDigits 10 n

/-- The line of an event in the syntax of R92; an ENQ in its explicit form, `accept` or `deny`. -/
def showEvent : Instr → List Char
  | .beginTx baud pin => "BEGIN ".toList ++ showNat baud.toNat ++ ", ".toList ++ showNat pin.toNat
  | .enq byte g => "ENQ ".toList ++ showNat byte.toNat ++ (if g then ", accept" else ", deny").toList
  | .flush => "FLUSH".toList
  | .endTx => "END".toList
  | .tick => "TICK".toList
  | .prepare => "PREPARE".toList
  | .startread => "STARTREAD".toList
  | .stopread => "STOPREAD".toList
  | .regl => "REGL".toList
  | .unregl => "UNREGL".toList
  | .rx byte => "RX ".toList ++ showNat byte.toNat
  | .timeout => "TIMEOUT".toList
  | .pstop => "PSTOP".toList

/-- A hexadecimal digit. -/
def hexDigit (c : Char) : Option Nat :=
  if '0' ≤ c ∧ c ≤ '9' then some (c.toNat - 48)
  else if 'a' ≤ c ∧ c ≤ 'f' then some (c.toNat - 87)
  else if 'A' ≤ c ∧ c ≤ 'F' then some (c.toNat - 55)
  else none

/-- The digits of a number in a base of at most 16, most significant first, onto `acc`. -/
def readDigits (base : Nat) : Nat → List Char → Option Nat
  | acc, [] => some acc
  | acc, c :: cs =>
    match hexDigit c with
    | some d => if d < base then readDigits base (acc * base + d) cs else none
    | none => none

/-- `n`: a decimal or 0x hexadecimal number (R92). -/
def readNat : List Char → Option Nat
  | [] => none
  | '0' :: 'x' :: c :: cs => readDigits 16 0 (c :: cs)
  | cs => readDigits 10 0 cs

/-- `c`: a byte as a number or as a quoted ASCII character (R92). -/
def readByte (cs : List Char) : Option Byte :=
  match cs with
  | ['\'', c, '\''] => if c.toNat < 128 then some (BitVec.ofNat 8 c.toNat) else none
  | _ =>
    match readNat cs with
    | some n => if n < 256 then some (BitVec.ofNat 8 n) else none
    | none => none

/-- The line without its comment (`;`) and without what the event produced (`->`), wherever they start (R92). A quoted character and a
quoted string hide both; the flag says that a string is open, in which an escaped quote does not close it (log entry 26). -/
def stripComment : Bool → List Char → List Char
  | false, '\'' :: c :: '\'' :: cs => '\'' :: c :: '\'' :: stripComment false cs
  | false, ';' :: _ => []
  | false, '-' :: '>' :: _ => []
  | false, '"' :: cs => '"' :: stripComment true cs
  | true, '\\' :: '"' :: cs => '\\' :: '"' :: stripComment true cs
  | true, '"' :: cs => '"' :: stripComment false cs
  | inString, c :: cs => c :: stripComment inString cs
  | _, [] => []

/-- The spaces at both ends removed. -/
def trimSpaces (cs : List Char) : List Char :=
  ((cs.dropWhile (· == ' ')).reverse.dropWhile (· == ' ')).reverse

/-- The arguments between commas; a quoted comma is a byte. `acc` is the argument being read, backwards. -/
def splitArgs : List Char → List Char → List (List Char)
  | acc, [] => [trimSpaces acc.reverse]
  | acc, '\'' :: c :: '\'' :: cs => splitArgs ('\'' :: c :: '\'' :: acc) cs
  | acc, ',' :: cs => trimSpaces acc.reverse :: splitArgs [] cs
  | acc, c :: cs => splitArgs (c :: acc) cs

/-- The scheduler's answer as R92 writes it. -/
def readAnswer (cs : List Char) : Option Bool :=
  if cs = "accept".toList then some true else if cs = "deny".toList then some false else none

/-- The bytes of a quoted string up to its closing quote, with the escapes of R93, and what follows it. DESIGN CHOICE, log entry 26: an
escaped double quote is the byte 0x22, as 95_test_vectors V-REG-14 uses it, and a backslash that starts no escape is the byte 0x5C. -/
def readString : List Char → Option (List Byte × List Char)
  | [] => none
  | '"' :: cs => some ([], cs)
  | '\\' :: 'x' :: h :: l :: cs =>
    match hexDigit h, hexDigit l with
    | some a, some b => (readString cs).map fun (bs, rest) => (BitVec.ofNat 8 (16 * a + b) :: bs, rest)
    | _, _ => (readString ('x' :: h :: l :: cs)).map fun (bs, rest) => (0x5C#8 :: bs, rest)
  | '\\' :: 'n' :: cs => (readString cs).map fun (bs, rest) => (0x0A#8 :: bs, rest)
  | '\\' :: 'r' :: cs => (readString cs).map fun (bs, rest) => (0x0D#8 :: bs, rest)
  | '\\' :: '"' :: cs => (readString cs).map fun (bs, rest) => (0x22#8 :: bs, rest)
  | c :: cs =>
    if c.toNat < 128 then (readString cs).map fun (bs, rest) => (BitVec.ofNat 8 c.toNat :: bs, rest) else none

/-- The events with no operand, by name (R92). -/
def plainEvent (name : List Char) : Option Instr :=
  if name = "FLUSH".toList then some .flush
  else if name = "END".toList then some .endTx
  else if name = "TICK".toList then some .tick
  else if name = "PREPARE".toList then some .prepare
  else if name = "STARTREAD".toList then some .startread
  else if name = "STOPREAD".toList then some .stopread
  else if name = "REGL".toList then some .regl
  else if name = "UNREGL".toList then some .unregl
  else if name = "TIMEOUT".toList then some .timeout
  else if name = "PSTOP".toList then some .pstop
  else none

/-- BEGIN's two operands, `baud, pin` (R92). -/
def readBegin (args : List (List Char)) : Option Instr :=
  match args with
  | [a, b] =>
    match readNat a, readNat b with
    | some baud, some pin =>
      if baud < 4194304 ∧ pin < 32 then some (.beginTx (BitVec.ofNat 22 baud) (BitVec.ofNat 5 pin)) else none
    | _, _ => none
  | _ => none

/-- ENQ's operands: `c`, `c, accept` or `c, deny`; without an answer g = 0 (R92). -/
def readEnq (args : List (List Char)) : Option Instr :=
  match args with
  | [a] => (readByte a).map fun b => .enq b false
  | [a, g] =>
    match readByte a, readAnswer g with
    | some b, some ans => some (.enq b ans)
    | _, _ => none
  | _ => none

/-- SEND and RXS: a string, and for SEND an answer (R93). DESIGN CHOICE, log entry 26: the escapes R93 gives for RXS are read in the
string of SEND too, and SEND takes `deny` as well as `accept`. -/
def readQuoted (sending : Bool) (cs : List Char) : Option (List Instr) :=
  match cs with
  | '"' :: body =>
    match readString body with
    | none => none
    | some (bs, rest) =>
      match trimSpaces rest with
      | [] => some (if sending then send false bs else rxs bs)
      | ',' :: ans => if sending then (readAnswer (trimSpaces ans)).map fun g => send g bs else none
      | _ => none
  | _ => none

/-- The events of one line, shorthands expanded; none if the line is not in the syntax (R92, R93). The comment goes first. DESIGN CHOICE,
log entry 26: a line with nothing but a comment has no event, and only the space separates. -/
def readLine (line : List Char) : Option (List Instr) :=
  let cs := trimSpaces (stripComment false line)
  let name := cs.takeWhile (· != ' ')
  let rest := trimSpaces (cs.dropWhile (· != ' '))
  let args := splitArgs [] rest
  if cs = [] then some []
  else if name = "SEND".toList then readQuoted true rest
  else if name = "RXS".toList then readQuoted false rest
  else if name = "TICKS".toList then
    match args with
    | [a] => (readNat a).map ticks
    | _ => none
  else if name = "BEGIN".toList then (readBegin args).map ([·])
  else if name = "ENQ".toList then (readEnq args).map ([·])
  else if name = "RX".toList then
    match args with
    | [a] => (readByte a).map fun b => [.rx b]
    | _ => none
  else if args = [[]] then (plainEvent name).map ([·])
  else none

end Sys2Proof.Machine
end

