-- ==== Sys2Proof/Machine/Ring.lean ====
section
/-! DEFINITION. The ring-buffer representation of the transmit queue that 20_memory R64 allows: a refinement of the sequence `q`, not
architectural state. `qcap` is the parameter QCAP. -/

namespace Sys2Proof.Machine

/-- `QMEM[0..QCAP-1]`, a read index, a write index and a count (20_memory R64). -/
structure Ring where
  qmem : List Byte
  rd   : Nat
  wr   : Nat
  cnt  : Nat
deriving DecidableEq, Repr

/-- QMEM has QCAP bytes, and the indices are in range and agree with the count (20_memory R64). -/
abbrev Ring.wf (qcap : Nat) (r : Ring) : Prop :=
  r.qmem.length = qcap ∧ r.rd < qcap ∧ r.cnt ≤ qcap ∧ r.wr = (r.rd + r.cnt) % qcap

/-- `MemRead(QMEM, i, 1)`. -/
def Ring.read (r : Ring) (i : Nat) : Byte := r.qmem.getD i 0#8

/-- The sequence the ring stands for (20_memory R64). -/
def Ring.queue (qcap : Nat) (r : Ring) : List Byte :=
  (List.range r.cnt).map fun k => r.read ((r.rd + k) % qcap)

/-- `Push(b)` on the ring (20_memory R62, R64). -/
def Ring.push (qcap : Nat) (b : Byte) (r : Ring) : Option Ring :=
  if r.cnt < qcap then
    some { r with qmem := r.qmem.set r.wr b, wr := (r.wr + 1) % qcap, cnt := r.cnt + 1 }
  else none

/-- `Pop()` on the ring (20_memory R63, R64). -/
def Ring.pop (qcap : Nat) (r : Ring) : Option (Byte × Ring) :=
  if 0 < r.cnt then some (r.read r.rd, { r with rd := (r.rd + 1) % qcap, cnt := r.cnt - 1 })
  else none

/-- The ring after reset (20_memory R64). Its memory is zero here; "QMEM contents unspecified and unreadable" (R270): no rule reads a
cell outside the live queue. -/
def Ring.reset (qcap : Nat) : Ring := { qmem := List.replicate qcap 0#8, rd := 0, wr := 0, cnt := 0 }

end Sys2Proof.Machine
end

