-- ==== Sys2Proof/Safety.lean ====
section
/-! DEFINITION. What counts as a good state: the invariants of 10_state R34 and R45, of the field store, and of the model's own fields. -/

namespace Sys2Proof.Machine

/-- The TX engine's invariants I1 to I7 of 10_state R34, and R32 ("in the SIMPLE variant `gs` is NONE always"). `stopHigh` is the
model's strengthening that makes the rest inductive: at cursor 9 the line is high "since the stop bit" (41_tx_bit_engine R124). -/
structure TxInv (s : State) : Prop where
  i1 : s.tx.q.length ≤ s.params.qcap
  i2 : s.tx.cursor ≤ 9#4
  i3 : s.tx.busy = false → s.tx.cursor = 0#4 ∧ s.tx.timerRun = false ∧ s.tx.line = true ∧ s.tx.gs = .none
  i4 : s.tx.timerRun = true → s.tx.busy = true ∧ s.tx.begun = true
  i5 : s.params.variant = .simple → s.tx.busy = s.tx.timerRun ∧ (s.tx.busy = false → s.tx.q = [])
  i6requested : s.params.variant = .coop → (s.tx.gs = .requested ↔ s.tx.busy = true ∧ s.tx.timerRun = false)
  i6active : s.params.variant = .coop → (s.tx.gs = .active ↔ s.tx.timerRun = true)
  i6waiting : s.params.variant = .coop → s.tx.gs = .requested →
    1 ≤ s.tx.q.length ∧ s.tx.cursor = 0#4 ∧ s.tx.line = true
  i7 : s.tx.begun = false → s.tx.busy = false ∧ s.tx.q = []
  simpleNoGrant : s.params.variant = .simple → s.tx.gs = .none
  stopHigh : s.tx.timerRun = true → s.tx.cursor = 9#4 → s.tx.line = true

/-- The invariant I8 of 10_state R34: the levels driven so far are whole bytes and the part of the byte in flight. -/
def WireInv (s : State) : Prop :=
  (s.tx.timerRun = false → s.tx.wire.length % 10 = 0) ∧
  (s.tx.timerRun = true → s.tx.wire.length % 10 = (s.tx.cursor.toNat + 1) % 10)

/-- Every byte of an array is not SP; that it is at most 0x7F is in its type. -/
def noSpaces (bs : List Byte7) : Prop := ∀ b ∈ bs, b ≠ Config.SP

/-- The parser engine's invariants P1, P3, P4, P5 of 10_state R45 (P2 is a statement about RX), and the sizes of its two arrays
(10_state R36, R37, 20_memory R60). -/
structure ParserInv (s : State) : Prop where
  p1 : s.ps.lablen.toNat ≤ s.params.labelMax.val ∧ s.ps.vallen.toNat ≤ s.params.valueMax.val
  p3 : s.ps.pstate = .label → s.ps.vallen = 0#4
  p4 : s.ps.stopReq = true → s.ps.pstate ≠ .stopped
  p5 : noSpaces s.ps.lab ∧ noSpaces s.ps.val
  sizes : s.ps.lab.length = s.params.labelMax.val ∧ s.ps.val.length = s.params.valueMax.val

/-- A cell fits its row: the value has the row's kind and a text is at most VALUE_MAX bytes (10_state R40,
44_field_registry R214). -/
def cellFits (valueMax : Nat) (kind : Kind) (c : Cell) : Prop :=
  c.value.kind = kind ∧ ∀ bytes, c.value = .text bytes → bytes.length ≤ valueMax

/-- The field store has one cell per row of REGISTRY and no cell has changed kind (10_state R40, 44_field_registry R214). -/
structure StoreInv (s : State) : Prop where
  sameLength : s.ps.store.length = s.params.registry.length
  fits : ∀ (n : Nat) (row : RegistryRow) (c : Cell),
    s.params.registry[n]? = some row → s.ps.store[n]? = some c → cellFits s.params.valueMax.val row.kind c

/-- Only FLUSH and END of the SIMPLE variant are ever held, after BEGIN (60_exceptions R244, 40_tx_host_commands R100). -/
def HeldInv (s : State) : Prop :=
  s.held.isSome = true → s.params.variant = .simple ∧ s.tx.begun = true

/-- A word whose event only the foreground issues: BEGIN, FLUSH, END or STARTREAD (60_exceptions R253, R244; log entry 12). -/
def IsForegroundWord (w : Word) : Prop :=
  (∃ baud pin, decode w = .ok (.beginTx baud pin)) ∨ decode w = .ok .flush ∨ decode w = .ok .endTx ∨ decode w = .ok .startread

/-- A good state. -/
structure State.Inv (s : State) : Prop where
  tx : TxInv s
  parser : ParserInv s
  store : StoreInv s
  held : HeldInv s

/-- The block has met no fatal fault: "a run that reaches it has gone wrong" (60_exceptions R238). -/
def State.safe (s : State) : Bool := !s.halted

end Sys2Proof.Machine
end

