-- ==== Sys2Proof/Certificates/Slice0/Obligations.lean ====
section
/-! DEFINITION. The statements for the provers. Rules are those of spec/; a clause that rests on a choice of the model names its log
entry. Every statement about the COOP variant stands under the spec's premise U7 (42_tx_timeslot R149, log entry 15). -/

open Sys2Proof Sys2Proof.Machine

/-! ### Event words -/

/-- Every event is read back from its word, with every operand at every value (R80 to R86). -/
def Obligations.DecodeOfEncode : Prop := ∀ i : Instr, decode (encode i) = .ok i

/-- A legal word has one meaning: the event it decodes to encodes to it and to nothing else (R85 to R87, R95). -/
def Obligations.EncodeOfDecode : Prop := ∀ (w : Word) (i : Instr), decode w = .ok i → encode i = w

/-- R85: a word is an event exactly when `W & mask = match`, row by row. -/
def Obligations.WordIsEventExactlyWhenRowMatches : Prop := ∀ w : Word,
  ((∃ baud pin, decode w = .ok (.beginTx baud pin)) ↔ w &&& 0xF8000000#32 = 0x08000000#32) ∧
  ((∃ byte g, decode w = .ok (.enq byte g)) ↔ w &&& 0xFFFFFE00#32 = 0x10000000#32) ∧
  (decode w = .ok .flush ↔ w &&& 0xFFFFFFFF#32 = 0x18000000#32) ∧
  (decode w = .ok .endTx ↔ w &&& 0xFFFFFFFF#32 = 0x20000000#32) ∧
  (decode w = .ok .tick ↔ w &&& 0xFFFFFFFF#32 = 0x40000000#32) ∧
  (decode w = .ok .prepare ↔ w &&& 0xFFFFFFFF#32 = 0x48000000#32) ∧
  (decode w = .ok .startread ↔ w &&& 0xFFFFFFFF#32 = 0x80000000#32) ∧
  (decode w = .ok .stopread ↔ w &&& 0xFFFFFFFF#32 = 0x88000000#32) ∧
  (decode w = .ok .regl ↔ w &&& 0xFFFFFFFF#32 = 0x90000000#32) ∧
  (decode w = .ok .unregl ↔ w &&& 0xFFFFFFFF#32 = 0x98000000#32) ∧
  ((∃ byte, decode w = .ok (.rx byte)) ↔ w &&& 0xFFFFFF00#32 = 0xC0000000#32) ∧
  (decode w = .ok .timeout ↔ w &&& 0xFFFFFFFF#32 = 0xC8000000#32) ∧
  (decode w = .ok .pstop ↔ w &&& 0xFFFFFFFF#32 = 0xD0000000#32)

/-- R87, R88: a word that no row matches decodes to an error and, presented (log entry 1), is refused, also while a command is held (log
entry 3); BEGIN with a baud rate of 0 is a legal word; PREPARE is refused in SIMPLE. -/
def Obligations.IllegalWordsAreRefused : Prop :=
  (∀ w : Word, (∀ r ∈ opcodeTable, w &&& r.mask ≠ r.pattern) ↔ ∃ e, decode w = .error e) ∧
  (∀ (s : State) (w : Word) (rest : List Word) (e : DecodeError), s.held = none → s.port = w :: rest → decode w = .error e →
    step s = .refused (.illegalWord e)) ∧
  (∀ (s : State) (c : HeldCommand) (before : List Word) (w : Word) (rest : List Word) (e : DecodeError), s.held = some c →
    s.tx.busy = true → s.port = before ++ w :: rest → (∀ x ∈ before, IsForegroundWord x) → decode w = .error e →
    step s = .refused (.illegalWord e)) ∧
  (∀ pin : Pin, decode (encode (.beginTx 0#22 pin)) = .ok (.beginTx 0#22 pin)) ∧
  (∀ (s : State) (rest : List Word), s.held = none → s.port = 0x48000000#32 :: rest → s.params.variant = .simple →
    step s = .refused (.illegalWord .notInVariant))

/-- Words written out from R80 to R84 (95_test_vectors V-ENC) decode to the events they stand for; a stored word is read most significant
byte first (R94), and what follows it is left. -/
def Obligations.WrittenOutAndStoredWordsDecode : Prop :=
  decode 0b00001_01001_0000000000010010110000#32 = .ok (.beginTx 1200#22 9#5) ∧
  decode 0b00010_000000000000000000_1_01000001#32 = .ok (.enq 0x41#8 true) ∧
  decode 0b01000_000000000000000000000000000#32 = .ok .tick ∧
  decode 0b01001_000000000000000000000000000#32 = .ok .prepare ∧
  decode 0b10010_000000000000000000000000000#32 = .ok .regl ∧
  decode 0b11000_0000000000000000000_10001101#32 = .ok (.rx 0x8D#8) ∧
  bytesOfWord (encode (.rx 0x02#8)) = [0xC0#8, 0x00#8, 0x00#8, 0x02#8] ∧
  (∀ (w : Word) (rest : List Byte) (i : Instr), decode w = .ok i → decodeBytes (bytesOfWord w ++ rest) = .ok (i, rest))

/-- R92: the line an event is written as reads back as that event alone. -/
def Obligations.TraceLinesAreReadBack : Prop := ∀ i : Instr, readLine (showEvent i) = some [i]

/-- R89: the codes and classes of the statuses, and the three fatal codes. -/
def Obligations.StatusCodesAndClasses : Prop :=
  [Status.ok, .full, .denied].map (fun e => (e.code, e.statusClass)) =
    [(0x00#8, .success), (0x01#8, .resourceExhaustion), (0x02#8, .resourceExhaustion)] ∧
  [Status.unexpectedByte, .badTrailer, .labelTooLong, .valueTooLong].map (fun e => (e.code, e.statusClass)) =
    [(0x10#8, .protocolViolation), (0x11#8, .protocolViolation), (0x12#8, .protocolViolation), (0x13#8, .protocolViolation)] ∧
  [Status.checksumMismatch, .timeout, .unknownLabel, .decodeError].map (fun e => (e.code, e.statusClass)) =
    [(0x14#8, .integrityFailure), (0x15#8, .timeout), (0x16#8, .reportedNotFatal), (0x17#8, .reportedNotFatal)] ∧
  [Status.frameComplete, .alreadyEnded, .stopped, .released].map (fun e => (e.code, e.statusClass)) =
    [(0x20#8, .notice), (0x21#8, .notice), (0x22#8, .notice), (0x23#8, .notice)] ∧
  [FatalCode.cursorRange, .doubleListener, .timerBinding].map FatalCode.code = [0xF0#8, 0xF1#8, 0xF2#8]

/-! ### The step -/

/-- A step runs the event its presented word decodes to, with the word taken off the port (R73; the port is log entry 1). While a
command is held on a busy engine (log entry 3) that is the oldest word that is not the waiting foreground's, a TICK or an interrupt ENQ
for one (R104, R244, log entries 12, 18); the foreground's words before it stay on the port in order. -/
def Obligations.StepRunsThePresentedEvent : Prop :=
  (∀ (s : State) (w : Word) (rest : List Word) (i : Instr), s.held = none → s.port = w :: rest → decode w = .ok i →
    i.wellFormed s.params.variant = true → step s = exec i { s with port := rest }) ∧
  (∀ (s : State) (c : HeldCommand) (before : List Word) (w : Word) (rest : List Word) (i : Instr), s.held = some c → s.tx.busy = true →
    s.port = before ++ w :: rest → (∀ x ∈ before, IsForegroundWord x) → ¬ IsForegroundWord w → decode w = .ok i →
    i.wellFormed s.params.variant = true → step s = exec i { s with port := before ++ rest })

/-- With nothing presented the block waits, or takes its own step PSTOP when that is enabled (the model's choice, log entries 1, 2). While
a command is held on a busy engine, a port of the waiting foreground's words alone is the same (log entries 3, 12). -/
def Obligations.StepWithNothingPresented : Prop := ∀ s : State,
  (s.held = none ∧ s.port = [] ∨ s.held ≠ none ∧ s.tx.busy = true ∧ ∀ x ∈ s.port, IsForegroundWord x) →
    (s.pstopEnabled = false → step s = .next s) ∧ (s.pstopEnabled = true → step s = exec .pstop s)

/-- R244 in the model's form (log entry 3): a held command happens as the very next step once `busy = 0`, and not before: while
`busy = 1` every step leaves it held. -/
def Obligations.HeldCommandWaitsForIdle : Prop :=
  (∀ (s : State) (c : HeldCommand), s.held = some c → s.tx.busy = false → step s = exec c.instr { s with held := none }) ∧
  (∀ (s t : State) (c : HeldCommand), s.held = some c → s.tx.busy = true → step s = .next t → t.held = some c)

/-! ### BEGIN, ENQ, FLUSH, END

That a refused event is a refusal with a name of its own is the model's form of R243 (log entry 7); that a request is recorded in
`schedLog` is the model's (log entry 10). -/

/-- R101: BEGIN configures an engine that is not begun, or is refused for an impossible rate, or is the fatal TIMER_BINDING. -/
def Obligations.BeginConfiguresOnce : Prop := ∀ (baud : Baud) (pin : Pin) (s : State), s.fault = none →
  (s.tx.begun = true → exec (.beginTx baud pin) s = .next { s with fault := some .timerBinding }) ∧
  (s.tx.begun = false → baud = 0#22 → exec (.beginTx baud pin) s = .refused .baudZero) ∧
  (s.tx.begun = false → baud ≠ 0#22 → s.params.timerHz.toNat / baud.toNat = 0 →
    exec (.beginTx baud pin) s = .refused .baudAboveTimer) ∧
  (s.tx.begun = false → baud ≠ 0#22 → s.params.timerHz.toNat / baud.toNat ≠ 0 →
    ∃ period slotUs : BitVec 32,
      period.toNat = s.params.timerHz.toNat / baud.toNat ∧
      slotUs.toNat = (10000000 + baud.toNat - 1) / baud.toNat + s.params.tsMarginUs.val ∧
      exec (.beginTx baud pin) s = .next { s with
        tx := { s.tx with baud := baud, pin := pin, period := period, slotUs := slotUs, oe := true, line := true, begun := true }
        txResult := .ok })

/-- R102, R103: ENQ on a full queue returns FULL, logs it and changes nothing else, whatever the engine does and `g` is; with room and
the engine busy it queues the byte behind the others; with room and the engine idle it takes the oldest byte and drives its start bit
(SIMPLE), or requests one window of `slot_us` and is busy if that is accepted, and idle with the byte queued if it is denied (COOP). That
the request is recorded in `schedLog` is the model's (log entry 10). -/
def Obligations.EnqQueuesStartsOrRequests : Prop := ∀ (byte : Byte) (g : Bool) (s : State), s.fault = none → s.tx.begun = true →
  (s.tx.q.length = s.params.qcap → exec (.enq byte g) s = .next { s with txResult := .full, errLog := s.errLog ++ [.full] }) ∧
  (s.tx.q.length < s.params.qcap → s.tx.busy = true →
    exec (.enq byte g) s = .next { s with tx := { s.tx with q := s.tx.q ++ [byte] }, txResult := .ok }) ∧
  (s.tx.q.length < s.params.qcap → s.tx.busy = false → s.params.variant = .simple → ∀ first rest, s.tx.q ++ [byte] = first :: rest →
    exec (.enq byte g) s = .next { s with
      tx := { s.tx with q := rest, cur := first, cursor := 0#4, line := false, wire := s.tx.wire ++ [false],
                        timerRun := true, busy := true }
      txResult := .ok }) ∧
  (s.tx.q.length < s.params.qcap → s.tx.busy = false → s.params.variant = .coop → g = true →
    exec (.enq byte g) s = .next { s with
      tx := { s.tx with q := s.tx.q ++ [byte], busy := true, gs := .requested }
      schedLog := s.schedLog ++ [.request s.tx.slotUs]
      txResult := .ok }) ∧
  (s.tx.q.length < s.params.qcap → s.tx.busy = false → s.params.variant = .coop → g = false →
    exec (.enq byte g) s = .next { s with
      tx := { s.tx with q := s.tx.q ++ [byte] }
      schedLog := s.schedLog ++ [.request s.tx.slotUs]
      errLog := s.errLog ++ [.denied]
      txResult := .denied })

/-- R104: FLUSH completes on an idle SIMPLE engine and always in COOP, writing the result only; on a busy SIMPLE engine it is held
(the model's form, log entry 3). -/
def Obligations.FlushWritesOnlyItsResult : Prop := ∀ s : State, s.fault = none → s.tx.begun = true →
  (s.params.variant = .simple → s.tx.busy = false → exec .flush s = .next { s with txResult := .ok }) ∧
  (s.params.variant = .coop → exec .flush s = .next { s with txResult := .ok }) ∧
  (s.params.variant = .simple → s.tx.busy = true → exec .flush s = .next { s with held := some .flush })

/-- R105, R150: END on an idle SIMPLE engine only ends it; in COOP it abandons the queue and the byte in flight and gives up the grant;
on a busy SIMPLE engine it is held (the model's form, log entry 3). -/
def Obligations.EndDrainsOrAbandons : Prop := ∀ s : State, s.fault = none → s.tx.begun = true →
  (s.params.variant = .simple → s.tx.busy = false →
    exec .endTx s = .next { s with tx := { s.tx with begun := false }, txResult := .ok }) ∧
  (s.params.variant = .coop →
    exec .endTx s = .next { s with
      tx := { s.tx with q := [], busy := false, cursor := 0#4, timerRun := false, gs := .none, line := true, begun := false }
      statusLog := if s.tx.gs = .none then s.statusLog else s.statusLog ++ [.released]
      txResult := .ok }) ∧
  (s.params.variant = .simple → s.tx.busy = true → exec .endTx s = .next { s with held := some .endTx })

/-- R100: every TX event is refused while `fault /= 0`; ENQ, FLUSH and END are refused while `begun = 0`. -/
def Obligations.TxEventsRefusedOutOfUse : Prop :=
  (∀ (s : State) (i : Instr), s.fault ≠ none → (encode i).getLsbD 31 = false → exec i s = .refused .halted) ∧
  (∀ s : State, s.fault = none → s.tx.begun = false →
    (∀ byte g, exec (.enq byte g) s = .refused .notBegun) ∧ exec .flush s = .refused .notBegun ∧
    exec .endTx s = .refused .notBegun)

/-! ### TICK and PREPARE

The actions these events return to the scheduler are the spec's (R90, R144 to R146); that they are recorded in `schedLog` is the model's
(log entry 10). -/

/-- R121, R144: TICK at cursor 0 to 7 drives bit `cursor` of the current byte. The action is recorded in `schedLog` (the
model's, log entry 10). -/
def Obligations.TickDrivesDataBit : Prop := ∀ s : State,
  s.fault = none → s.tx.timerRun = true → s.tx.cursor.toNat ≤ 7 →
    exec .tick s = .next { s with
      tx := { s.tx with line := s.tx.cur.getLsbD s.tx.cursor.toNat
                        wire := s.tx.wire ++ [s.tx.cur.getLsbD s.tx.cursor.toNat]
                        cursor := s.tx.cursor + 1#4 }
      schedLog := if s.params.variant = .coop then s.schedLog ++ [.continue_] else s.schedLog }

/-- R122, R144: TICK at cursor 8 drives the stop bit. The action is recorded in `schedLog` (the
model's, log entry 10). -/
def Obligations.TickDrivesStopBit : Prop := ∀ s : State,
  s.fault = none → s.tx.timerRun = true → s.tx.cursor = 8#4 →
    exec .tick s = .next { s with
      tx := { s.tx with line := true, wire := s.tx.wire ++ [true], cursor := 9#4 }
      schedLog := if s.params.variant = .coop then s.schedLog ++ [.continue_] else s.schedLog }

/-- R123, R145, R103: TICK at cursor 9 with a byte waiting takes it, drives its start bit, and in COOP extends the window. The
action is recorded in `schedLog` (the model's, log entry 10). -/
def Obligations.TickTakesNextByte : Prop := ∀ (s : State) (b : Byte) (rest : List Byte),
  s.fault = none → s.tx.timerRun = true → s.tx.cursor = 9#4 → s.tx.q = b :: rest →
    exec .tick s = .next { s with
      tx := { s.tx with q := rest, cur := b, cursor := 0#4, line := false, wire := s.tx.wire ++ [false] }
      schedLog := if s.params.variant = .coop then s.schedLog ++ [.extend s.tx.slotUs] else s.schedLog }

/-- R124, R146: TICK at cursor 9 with an empty queue stops the timer and goes idle, and in COOP ends the window. The action
is recorded in `schedLog` (the model's, log entry 10). -/
def Obligations.TickGoesIdle : Prop := ∀ s : State,
  s.fault = none → s.tx.timerRun = true → s.tx.cursor = 9#4 → s.tx.q = [] →
    exec .tick s = .next { s with
      tx := { s.tx with cursor := 0#4, timerRun := false, busy := false
                        gs := if s.params.variant = .coop then .none else s.tx.gs }
      schedLog := if s.params.variant = .coop then s.schedLog ++ [.end_] else s.schedLog }

/-- R125: TICK with a cursor above 9 is the fatal CURSOR_RANGE, 0xF0; it writes nothing else, and every event is refused after it. -/
def Obligations.TickCursorOutOfRangeIsFatal : Prop := ∀ s : State,
  s.fault = none → s.tx.timerRun = true → 10 ≤ s.tx.cursor.toNat →
    exec .tick s = .next { s with fault := some .cursorRange } ∧
    ({ s with fault := some .cursorRange } : State).faultCode = 0xF0#8 ∧
    ∀ i : Instr, exec i { s with fault := some .cursorRange } = .refused .halted

/-- The events that are not enabled have no step (R120, R164, R165, R173; the model's form, log entry 6). -/
def Obligations.EventsNotEnabledHaveNoStep : Prop := ∀ s : State, s.fault = none →
  (s.tx.timerRun = false → exec .tick s = .fault .tickTimerStopped) ∧
  (s.ps.pstate = .stopped ∨ s.ps.stopReq = true →
    (∀ byte, exec (.rx byte) s = .fault .rxNotReading) ∧ exec .timeout s = .fault .timeoutNotReading) ∧
  (s.ps.pstate = .stopped ∨ s.ps.stopReq = false → exec .pstop s = .fault .pstopNotEnabled)

/-- R143, R147: PREPARE in COOP, whatever `begun` is, starts the byte of a requested window, and answers TS_END to any other window
without touching the state. The actions are recorded in `schedLog` (the model's, log entry 10). -/
def Obligations.PrepareOpensRequestedWindow : Prop := ∀ s : State, s.fault = none → s.params.variant = .coop →
  (∀ b rest, s.tx.gs = .requested → s.tx.q = b :: rest →
    exec .prepare s = .next { s with
      tx := { s.tx with q := rest, cur := b, cursor := 0#4, line := false, wire := s.tx.wire ++ [false],
                        gs := .active, timerRun := true }
      schedLog := s.schedLog ++ [.continue_] }) ∧
  (s.tx.gs = .requested → s.tx.q = [] →
    exec .prepare s = .next { s with tx := { s.tx with gs := .none, busy := false }, schedLog := s.schedLog ++ [.end_] }) ∧
  (s.tx.gs ≠ .requested → exec .prepare s = .next { s with schedLog := s.schedLog ++ [.end_] })

/-- R140: the grant state moves only along the rows of the table (and the unreachable row of R143). -/
def Obligations.GrantMovesOnlyByTheTable : Prop := ∀ (i : Instr) (s t : State),
  s.params.variant = .coop → TxInv s → exec i s = .next t → t.tx.gs ≠ s.tx.gs →
    (s.tx.gs = .none ∧ t.tx.gs = .requested ∧ ∃ byte, i = .enq byte true) ∨
    (s.tx.gs = .requested ∧ t.tx.gs = .active ∧ i = .prepare) ∨
    (s.tx.gs = .active ∧ t.tx.gs = .none ∧ i = .tick ∧ s.tx.cursor = 9#4 ∧ s.tx.q = []) ∨
    (s.tx.gs ≠ .none ∧ t.tx.gs = .none ∧ i = .endTx ∧ t.statusLog = s.statusLog ++ [.released])

/-- R148, R141: a request is made only by an ENQ that finds no grant, for `slot_us`. Requests are read from `schedLog` (the model's, log
entry 10). -/
def Obligations.RequestsOnlyWithoutGrant : Prop := ∀ (i : Instr) (s t : State) (us : BitVec 32),
  TxInv s → exec i s = .next t → t.schedLog = s.schedLog ++ [.request us] →
    s.params.variant = .coop ∧ s.tx.gs = .none ∧ s.tx.busy = false ∧ us = s.tx.slotUs ∧ ∃ byte g, i = .enq byte g

/-! ### The waveform -/

/-- R126: the nine TICKs after a start bit drive the eight data bits, least significant first, and the stop bit. The
actions are recorded in `schedLog` (the model's, log entry 10). -/
def Obligations.NineTicksSendTheByte : Prop := ∀ s : State,
  s.fault = none → s.tx.timerRun = true → s.tx.cursor = 0#4 →
    execAll (ticks 9) s = .next { s with
      tx := { s.tx with line := true, cursor := 9#4, wire := s.tx.wire ++ (byteLevels s.tx.cur).tail }
      schedLog := if s.params.variant = .coop then s.schedLog ++ List.replicate 9 .continue_ else s.schedLog }

/-- R127: with the timer running at the start of a byte, ten TICKs for it and for every byte queued send them all in order with nothing
between them, and the engine ends idle. In COOP each further byte extends the window, and the last one ends it:
the actions are recorded in `schedLog` (the model's, log entry 10), and every extension is granted (the spec's premise, log entry 15). -/
def Obligations.TicksSendTheWholeQueue : Prop := ∀ s : State,
  s.fault = none → s.tx.timerRun = true → s.tx.cursor = 0#4 →
    execAll (ticks (10 * (s.tx.q.length + 1))) s = .next { s with
      tx := { s.tx with
        q := []
        cur := s.tx.q.getLastD s.tx.cur
        cursor := 0#4
        line := true
        timerRun := false
        busy := false
        gs := if s.params.variant = .coop then .none else s.tx.gs
        wire := s.tx.wire ++ (byteLevels s.tx.cur).tail ++ (s.tx.q.map byteLevels).flatten }
      schedLog :=
        if s.params.variant = .coop then
          s.schedLog ++ (s.tx.q.map fun _ => List.replicate 9 .continue_ ++ [.extend s.tx.slotUs]).flatten ++
            (List.replicate 9 .continue_ ++ [.end_])
        else s.schedLog }

/-- R127, R108 for SIMPLE: up to QCAP + 1 bytes (81 by default) enqueued on an idle engine are all accepted and sent in order, ten TICKs
each. -/
def Obligations.SimpleEngineSendsInOrder : Prop := ∀ (s : State) (g : Bool) (bytes : List Byte),
  s.fault = none → s.params.variant = .simple → TxInv s → s.tx.begun = true → s.tx.busy = false →
  1 ≤ s.params.qcap → bytes ≠ [] → bytes.length ≤ s.params.qcap + 1 →
    ∃ t, execAll (send g bytes ++ ticks (10 * bytes.length)) s = .next t ∧
      t.tx.wire = s.tx.wire ++ (bytes.map byteLevels).flatten ∧
      t.tx.busy = false ∧ t.tx.q = [] ∧ t.tx.line = true ∧ t.txResult = .ok ∧ t.errLog = s.errLog ∧ t.ps = s.ps

/-- R127, R108 for COOP: up to QCAP bytes (80 by default) enqueued on an idle, empty engine whose request is accepted are all accepted and, once the
window opens, sent in order, ten TICKs each, under the spec's premise that every extension is granted (log entry 15). -/
def Obligations.CoopEngineSendsInOrder : Prop := ∀ (s : State) (bytes : List Byte),
  s.fault = none → s.params.variant = .coop → TxInv s → s.tx.begun = true → s.tx.busy = false → s.tx.q = [] →
  bytes ≠ [] → bytes.length ≤ s.params.qcap →
    ∃ t, execAll (send true bytes ++ .prepare :: ticks (10 * bytes.length)) s = .next t ∧
      t.tx.wire = s.tx.wire ++ (bytes.map byteLevels).flatten ∧
      t.tx.busy = false ∧ t.tx.gs = .none ∧ t.tx.q = [] ∧ t.tx.line = true ∧ t.txResult = .ok ∧ t.errLog = s.errLog ∧ t.ps = s.ps

/-! ### The parser's framing -/

/-- R161, R162, R164: STARTREAD starts a stopped loop and is refused while it runs (the name of the refusal is the model's, log entry 7);
STOPREAD sets the flag of a running loop only; PSTOP stops a loop asked to stop, clears the flag and gives the notice STOPPED, a group in
progress is dropped without an error, and in every other state PSTOP has no step. -/
def Obligations.ReadLoopStartsAndStops : Prop :=
  (∀ s : State, s.fault = none →
    (s.ps.pstate = .stopped →
      exec .startread s = .next { s with ps := { s.ps with pstate := .waitStart, stopReq := false }, pResult := .ok }) ∧
    (s.ps.pstate ≠ .stopped → exec .startread s = .refused .alreadyReading) ∧
    (s.ps.pstate ≠ .stopped → exec .stopread s = .next { s with ps := { s.ps with stopReq := true }, pResult := .ok }) ∧
    (s.ps.pstate = .stopped → exec .stopread s = .next { s with pResult := .ok }) ∧
    (s.ps.stopReq = true → s.ps.pstate ≠ .stopped →
      exec .pstop s = .next { s with ps := { s.ps with pstate := .stopped, stopReq := false }
                                     statusLog := s.statusLog ++ [.stopped] })) ∧
  (∀ s t : State, s.ps.stopReq = false ∨ s.ps.pstate = .stopped ∨ s.fault ≠ none → exec .pstop s ≠ .next t)

/-- R163: bit 7 of a received byte is never seen. -/
def Obligations.RxSeesSevenBits : Prop := ∀ (s : State) (b c : Byte), b &&& 0x7F#8 = c &&& 0x7F#8 → exec (.rx b) s = exec (.rx c) s

/-- R166: RX in WAITSTART. EOT is a parameter (93 G1), and STX is asked for first, whatever its value. -/
def Obligations.RxLooksForStartOfFrame : Prop := ∀ (byte : Byte) (b7 : Byte7) (s : State), b7.setWidth 8 = byte &&& 0x7F#8 →
  s.fault = none → s.ps.stopReq = false → s.ps.pstate = .waitStart →
    (b7 = Config.STX → exec (.rx byte) s = .next { s with ps := { s.ps with pstate := .groups } }) ∧
    (b7 ≠ Config.STX → b7 = Config.ETX ∨ b7 = s.params.eot →
      exec (.rx byte) s = .next { s with statusLog := s.statusLog ++ [.alreadyEnded] }) ∧
    (b7 ≠ Config.STX → b7 ≠ Config.ETX → b7 ≠ s.params.eot → exec (.rx byte) s = .next s)

/-- R167: RX in GROUPS. EOT is a parameter (93 G1), and LF is asked for first, whatever its value. -/
def Obligations.RxBeginsGroupOrEndsFrame : Prop := ∀ (byte : Byte) (b7 : Byte7) (s : State), b7.setWidth 8 = byte &&& 0x7F#8 →
  s.fault = none → s.ps.stopReq = false → s.ps.pstate = .groups →
    (b7 = Config.LF →
      exec (.rx byte) s = .next { s with ps := { s.ps with lablen := 0#3, vallen := 0#4, pstate := .label } }) ∧
    (b7 ≠ Config.LF → b7 = Config.ETX ∨ b7 = s.params.eot →
      exec (.rx byte) s = .next { s with ps := { s.ps with pstate := .waitStart }
                                         statusLog := s.statusLog ++ [.frameComplete] }) ∧
    (b7 ≠ Config.LF → b7 ≠ Config.ETX → b7 ≠ s.params.eot →
      exec (.rx byte) s = .next { s with ps := { s.ps with pstate := .waitStart }
                                         statusLog := s.statusLog ++ [.unexpectedByte]
                                         errLog := s.errLog ++ [.unexpectedByte] })

/-- R168: RX in LABEL ends the label at SP, appends any other byte to a label of fewer than LABEL_MAX, and aborts at
the next. -/
def Obligations.RxAccumulatesLabel : Prop := ∀ (byte : Byte) (b7 : Byte7) (s : State), b7.setWidth 8 = byte &&& 0x7F#8 →
  s.fault = none → s.ps.stopReq = false → s.ps.pstate = .label →
    (b7 = Config.SP → exec (.rx byte) s = .next { s with ps := { s.ps with pstate := .value } }) ∧
    (b7 ≠ Config.SP → s.ps.lablen.toNat < s.params.labelMax.val →
      exec (.rx byte) s = .next { s with
        ps := { s.ps with lab := s.ps.lab.set s.ps.lablen.toNat b7, lablen := s.ps.lablen + 1#3 } }) ∧
    (b7 ≠ Config.SP → s.params.labelMax.val ≤ s.ps.lablen.toNat →
      exec (.rx byte) s = .next { s with ps := { s.ps with pstate := .waitStart }
                                         statusLog := s.statusLog ++ [.labelTooLong]
                                         errLog := s.errLog ++ [.labelTooLong] })

/-- R169: RX in VALUE ends the value at SP, appends any other byte to a value of fewer than VALUE_MAX, and aborts at
the next. -/
def Obligations.RxAccumulatesValue : Prop := ∀ (byte : Byte) (b7 : Byte7) (s : State), b7.setWidth 8 = byte &&& 0x7F#8 →
  s.fault = none → s.ps.stopReq = false → s.ps.pstate = .value →
    (b7 = Config.SP → exec (.rx byte) s = .next { s with ps := { s.ps with pstate := .checksum } }) ∧
    (b7 ≠ Config.SP → s.ps.vallen.toNat < s.params.valueMax.val →
      exec (.rx byte) s = .next { s with
        ps := { s.ps with val := s.ps.val.set s.ps.vallen.toNat b7, vallen := s.ps.vallen + 1#4 } }) ∧
    (b7 ≠ Config.SP → s.params.valueMax.val ≤ s.ps.vallen.toNat →
      exec (.rx byte) s = .next { s with ps := { s.ps with pstate := .waitStart }
                                         statusLog := s.statusLog ++ [.valueTooLong]
                                         errLog := s.errLog ++ [.valueTooLong] })

/-- R170: RX in CHECKSUM accepts exactly the computed checksum of the label and value read, and aborts on any other byte. -/
def Obligations.RxValidatesChecksum : Prop := ∀ (byte : Byte) (s : State),
  s.fault = none → s.ps.stopReq = false → s.ps.pstate = .checksum →
    (byte &&& 0x7F#8 = checksum (s.ps.lab.take s.ps.lablen.toNat) (s.ps.val.take s.ps.vallen.toNat) →
      exec (.rx byte) s = .next { s with ps := { s.ps with pstate := .trailer } }) ∧
    (byte &&& 0x7F#8 ≠ checksum (s.ps.lab.take s.ps.lablen.toNat) (s.ps.val.take s.ps.vallen.toNat) →
      exec (.rx byte) s = .next { s with ps := { s.ps with pstate := .waitStart }
                                         statusLog := s.statusLog ++ [.checksumMismatch]
                                         errLog := s.errLog ++ [.checksumMismatch] })

/-- R171: RX in TRAILER dispatches the group at CR and returns to GROUPS, and aborts on any other byte. -/
def Obligations.RxDispatchesAtTrailer : Prop := ∀ (byte : Byte) (b7 : Byte7) (s : State), b7.setWidth 8 = byte &&& 0x7F#8 →
  s.fault = none → s.ps.stopReq = false → s.ps.pstate = .trailer →
    (b7 = Config.CR →
      ∃ t, t = dispatch (s.ps.lab.take s.ps.lablen.toNat) (s.ps.val.take s.ps.vallen.toNat) s ∧
        exec (.rx byte) s = .next { t with ps := { t.ps with pstate := .groups } }) ∧
    (b7 ≠ Config.CR →
      exec (.rx byte) s = .next { s with ps := { s.ps with pstate := .waitStart }
                                         statusLog := s.statusLog ++ [.badTrailer]
                                         errLog := s.errLog ++ [.badTrailer] })

/-- R173, R174: TIMEOUT in every reading state reports TIMEOUT and goes to WAITSTART; buffers, lengths and store stay. -/
def Obligations.TimeoutAbortsTheFrame : Prop := ∀ s : State,
  s.fault = none → s.ps.stopReq = false → s.ps.pstate ≠ .stopped →
    exec .timeout s = .next { s with ps := { s.ps with pstate := .waitStart }
                                     statusLog := s.statusLog ++ [.timeout]
                                     errLog := s.errLog ++ [.timeout] }

/-- R175, R170, R171: in GROUPS, every group of the frame format, whatever bit 7 of its bytes, is read to its end and dispatched with
exactly its label and value; nothing else of the state changes but the buffers. -/
def Obligations.WellFormedGroupIsDispatched : Prop := ∀ (s : State) (L V : List Byte7) (bytes : List Byte),
  s.fault = none → ParserInv s → s.ps.stopReq = false → s.ps.pstate = .groups →
  L.length ≤ s.params.labelMax.val → V.length ≤ s.params.valueMax.val → noSpaces L → noSpaces V →
  bytes.map (fun b => b &&& 0x7F#8) = groupBytes L V →
    ∃ t, execAll (rxs bytes) s = .next t ∧ t.ps.label = L ∧ t.ps.value = V ∧
      t = { dispatch L V s with
            ps := { (dispatch L V s).ps with
                    pstate := .groups, lab := t.ps.lab, lablen := t.ps.lablen, val := t.ps.val, vallen := t.ps.vallen } }

/-! ### The checksum -/

/-- R172: the checksum is `((0x20 + sums) & 0x3F) + 0x20`, lies in 0x20 to 0x5F, and is the same from a sum kept with wrap-around in any
width of six bits or more; the sum of a group is at most 2826. -/
def Obligations.ChecksumIsTheMaskedSum : Prop := ∀ L V : List Byte7,
  (checksum L V).toNat = (0x20 + (L.map BitVec.toNat).sum + (V.map BitVec.toNat).sum) % 64 + 0x20 ∧
  0x20 ≤ (checksum L V).toNat ∧ (checksum L V).toNat ≤ 0x5F ∧
  (∀ w, 6 ≤ w →
    (checksum L V).toNat = ((L ++ V).foldl (fun (acc : BitVec w) b => acc + b.setWidth w) (BitVec.ofNat w 0x20)).toNat % 64 + 0x20) ∧
  (L.length ≤ 7 → V.length ≤ 15 → 0x20 + (L.map BitVec.toNat).sum + (V.map BitVec.toNat).sum ≤ 2826)

/-- R177 (a), (b): another checksum byte is always detected, and one changed label or value byte exactly when it changed by no multiple
of 64. -/
def Obligations.ChecksumDetectsChangesButMultiplesOf64 : Prop :=
  (∀ (s : State) (byte : Byte), s.fault = none → s.ps.stopReq = false → s.ps.pstate = .checksum →
    byte &&& 0x7F#8 ≠ checksum s.ps.label s.ps.value →
      ∃ t, exec (.rx byte) s = .next t ∧ t.errLog = s.errLog ++ [.checksumMismatch] ∧ t.ps.store = s.ps.store) ∧
  (∀ (L₁ L₂ V : List Byte7) (x y : Byte7),
    checksum (L₁ ++ x :: L₂) V = checksum (L₁ ++ y :: L₂) V ↔ x.toNat % 64 = y.toNat % 64) ∧
  (∀ (L V₁ V₂ : List Byte7) (x y : Byte7),
    checksum L (V₁ ++ x :: V₂) = checksum L (V₁ ++ y :: V₂) ↔ x.toNat % 64 = y.toNat % 64)

/-! ### The registry, the store and the listener -/

/-- R200, R201: REGL registers the listener and is fatal when there is one; UNREGL removes it. -/
def Obligations.OneListenerAtATime : Prop := ∀ s : State, s.fault = none →
  (s.ps.listener = false → exec .regl s = .next { s with ps := { s.ps with listener := true }, pResult := .ok }) ∧
  (s.ps.listener = true → exec .regl s = .next { s with fault := some .doubleListener }) ∧
  exec .unregl s = .next { s with ps := { s.ps with listener := false }, pResult := .ok }

/-- R202, R208 to R210: the five outcomes of Dispatch. -/
def Obligations.DispatchStoresAndNotifiesChanges : Prop := ∀ (L V : List Byte7) (s : State),
  (findField s.params.registry L = none →
    dispatch L V s = { s with statusLog := s.statusLog ++ [.unknownLabel], errLog := s.errLog ++ [.unknownLabel] }) ∧
  (∀ fid kind, findField s.params.registry L = some (fid, kind) → decodeField kind V = none →
    dispatch L V s = { s with statusLog := s.statusLog ++ [.decodeError], errLog := s.errLog ++ [.decodeError] }) ∧
  (∀ fid kind d cell, findField s.params.registry L = some (fid, kind) → decodeField kind V = some d →
    s.ps.store[fid]? = some cell →
      (cell.valid = true → cell.value = d → dispatch L V s = s) ∧
      (cell.valid = false ∨ cell.value ≠ d →
        dispatch L V s = { s with
          ps := { s.ps with store := s.ps.store.set fid { valid := true, value := d } }
          notifyLog := if s.ps.listener then s.notifyLog ++ [{ fid := fid, kind := kind, value := d }] else s.notifyLog }))

/-- R203: look-up is by the whole label; in a table of distinct labels it finds exactly the row, with its number and kind. -/
def Obligations.LookupFindsExactlyTheRow : Prop := ∀ (registry : List RegistryRow) (L : List Byte7), distinctLabels registry = true →
  (∀ n kind, findField registry L = some (n, kind) ↔ ∃ row, registry[n]? = some row ∧ row.label = L ∧ row.kind = kind) ∧
  (findField registry L = none ↔ ∀ row ∈ registry, row.label ≠ L)

/-- R205: a uint is one to fifteen decimal digits; its value is the number they write, leading zeros do not matter, and 64 bits hold
it. -/
def Obligations.UintDecodesDecimalDigits : Prop :=
  (∀ V : List Byte7, (∃ n, decodeUint V = some n) ↔ V ≠ [] ∧ ∀ b ∈ V, 0x30 ≤ b.toNat ∧ b.toNat ≤ 0x39) ∧
  (∀ (V : List Byte7) (n : BitVec 64), V.length ≤ 15 → decodeUint V = some n →
    n.toNat = Nat.ofDigits 10 (V.reverse.map fun b => b.toNat - 0x30) ∧ n.toNat < 10 ^ 15) ∧
  (∀ V : List Byte7, V ≠ [] → decodeUint (0x30#7 :: V) = decodeUint V)

/-- R213 for uint: a number below 10^15, written in decimal, decodes to itself; zero is written as one digit. -/
def Obligations.UintRoundTrip : Prop :=
  (∀ n : Nat, n < 10 ^ 15 → n ≠ 0 →
    decodeField .uint ((Nat.digits 10 n).reverse.map fun d => BitVec.ofNat 7 (0x30 + d)) = some (.uint (BitVec.ofNat 64 n))) ∧
  decodeField .uint [0x30#7] = some (.uint 0#64)

/-- R204, R206, R207: a text is its bytes; an enumeration value is exactly an enumerator's name with any number of dots after it, and the
enumerators are numbered in the source's order. -/
def Obligations.NamesDecodeWithTrailingDots : Prop :=
  (∀ V : List Byte7, decodeField .text V = some (.text V)) ∧
  (∀ (V : List Byte7) (o : Optarif), decodeOptarif V = some o ↔ ∃ k, V = (match o with
    | .BASE => Config.ascii ['B', 'A', 'S', 'E']
    | .HC => Config.ascii ['H', 'C']
    | .EJP => Config.ascii ['E', 'J', 'P']) ++ List.replicate k 0x2E#7) ∧
  (∀ (V : List Byte7) (p : Ptec), decodePtec V = some p ↔ ∃ k, V = (match p with
    | .TH => Config.ascii ['T', 'H']
    | .HC => Config.ascii ['H', 'C']
    | .HP => Config.ascii ['H', 'P']
    | .HN => Config.ascii ['H', 'N']
    | .PM => Config.ascii ['P', 'M']) ++ List.replicate k 0x2E#7) ∧
  Optarif.BASE.number = 0 ∧ Optarif.HC.number = 1 ∧ Optarif.EJP.number = 2 ∧
  Ptec.TH.number = 0 ∧ Ptec.HC.number = 1 ∧ Ptec.HP.number = 2 ∧ Ptec.HN.number = 3 ∧ Ptec.PM.number = 4

/-- R208, R212, R40: only the CR of an accepted group changes the store; a notification goes out exactly when the store changed with a
listener registered, one per event, and carries the new value. -/
def Obligations.NotifiesExactlyTheChanges : Prop := ∀ (i : Instr) (s t : State), StoreInv s → exec i s = .next t →
  (t.ps.store ≠ s.ps.store → (∃ byte, i = .rx byte ∧ mask7 byte = Config.CR) ∧ s.ps.pstate = .trailer) ∧
  (t.notifyLog ≠ s.notifyLog ↔ t.ps.store ≠ s.ps.store ∧ s.ps.listener = true) ∧
  (t.ps.store ≠ s.ps.store → s.ps.listener = true → ∃ r old,
    t.notifyLog = s.notifyLog ++ [r] ∧ s.ps.store[r.fid]? = some old ∧ (old.valid = false ∨ old.value ≠ r.value) ∧
    r.value.kind = r.kind ∧ t.ps.store = s.ps.store.set r.fid { valid := true, value := r.value })

/-! ### Fatal faults, histories, who writes what -/

/-- R238, R271: the fatal latch takes the first code and nothing else; a halted block refuses every event; reset is what clears it. -/
def Obligations.FatalFaultHaltsTheBlock : Prop :=
  (∀ (c : FatalCode) (s : State), s.fault = none → raiseFatal c s = .next { s with fault := some c }) ∧
  (∀ (c : FatalCode) (s : State), s.fault ≠ none → raiseFatal c s = .next s) ∧
  (∀ (i : Instr) (s : State), s.fault ≠ none → exec i s = .refused .halted) ∧
  (∀ (s t : State), s.fault ≠ none → step s = .next t → t = s) ∧
  (∀ s : State, s.applyReset.fault = none)

/-- R231: the fatal latch moves only for the three causes, to their codes, and nothing else is written. -/
def Obligations.FatalFaultHasThreeCauses : Prop := ∀ (i : Instr) (s t : State), exec i s = .next t → t.fault ≠ s.fault →
  s.fault = none ∧
  ((i = .tick ∧ s.tx.timerRun = true ∧ 10 ≤ s.tx.cursor.toNat ∧ t = { s with fault := some .cursorRange }) ∨
   (i = .regl ∧ s.ps.listener = true ∧ t = { s with fault := some .doubleListener }) ∨
   (∃ baud pin, i = .beginTx baud pin ∧ s.tx.begun = true ∧ t = { s with fault := some .timerBinding }))

/-- R33, R46, R272: the wire trace and the logs only grow, the model's `schedLog` (log entry 10) among them, and the parameters never
change. -/
def Obligations.HistoriesOnlyGrow : Prop := ∀ s t : State, step s = .next t →
  t.params = s.params ∧ s.tx.wire <+: t.tx.wire ∧ s.statusLog <+: t.statusLog ∧ s.errLog <+: t.errLog ∧
  s.notifyLog <+: t.notifyLog ∧ s.schedLog <+: t.schedLog

/-- R20 to R46: each register of the spec's state and the events that write it. The queue grows by ENQ only and shrinks from its head or
is emptied by END; LAB is written in LABEL only, VAL in VALUE only, the store in TRAILER only. -/
def Obligations.EachRegisterHasItsWriters : Prop := ∀ (i : Instr) (s t : State), exec i s = .next t →
  ((∀ baud pin, i ≠ .beginTx baud pin) →
    t.tx.pin = s.tx.pin ∧ t.tx.baud = s.tx.baud ∧ t.tx.period = s.tx.period ∧ t.tx.slotUs = s.tx.slotUs ∧ t.tx.oe = s.tx.oe) ∧
  (t.tx.begun ≠ s.tx.begun → (∃ baud pin, i = .beginTx baud pin) ∨ i = .endTx) ∧
  (t.tx.q = s.tx.q ∨ (∃ b g, i = .enq b g ∧ (t.tx.q = s.tx.q ++ [b] ∨ t.tx.q = (s.tx.q ++ [b]).tail)) ∨
    (i = .tick ∨ i = .prepare) ∧ t.tx.q = s.tx.q.tail ∨ i = .endTx ∧ t.tx.q = []) ∧
  (t.tx.busy ≠ s.tx.busy → (∃ b g, i = .enq b g) ∨ i = .tick ∨ i = .prepare ∨ i = .endTx) ∧
  (t.tx.timerRun ≠ s.tx.timerRun → (∃ b g, i = .enq b g) ∨ i = .tick ∨ i = .prepare ∨ i = .endTx) ∧
  (t.tx.cursor ≠ s.tx.cursor → (∃ b g, i = .enq b g) ∨ i = .tick ∨ i = .prepare ∨ i = .endTx) ∧
  (t.tx.gs ≠ s.tx.gs → (∃ b g, i = .enq b g) ∨ i = .tick ∨ i = .prepare ∨ i = .endTx) ∧
  (t.tx.cur ≠ s.tx.cur → (∃ b g, i = .enq b g) ∨ i = .tick ∨ i = .prepare) ∧
  (t.tx.wire ≠ s.tx.wire → (∃ b g, i = .enq b g) ∨ i = .tick ∨ i = .prepare) ∧
  (t.tx.line ≠ s.tx.line →
    (∃ b g, i = .enq b g) ∨ i = .tick ∨ i = .prepare ∨ (∃ baud pin, i = .beginTx baud pin) ∨ i = .endTx) ∧
  (t.txResult ≠ s.txResult → (∃ baud pin, i = .beginTx baud pin) ∨ (∃ b g, i = .enq b g) ∨ i = .flush ∨ i = .endTx) ∧
  (t.ps.pstate ≠ s.ps.pstate → i = .startread ∨ i = .pstop ∨ i = .timeout ∨ ∃ byte, i = .rx byte) ∧
  (t.ps.stopReq ≠ s.ps.stopReq → i = .startread ∨ i = .stopread ∨ i = .pstop) ∧
  (t.ps.listener ≠ s.ps.listener → i = .regl ∨ i = .unregl) ∧
  (t.ps.lablen ≠ s.ps.lablen → (s.ps.pstate = .groups ∨ s.ps.pstate = .label) ∧ ∃ byte, i = .rx byte) ∧
  (t.ps.vallen ≠ s.ps.vallen → (s.ps.pstate = .groups ∨ s.ps.pstate = .value) ∧ ∃ byte, i = .rx byte) ∧
  (t.ps.lab ≠ s.ps.lab → s.ps.pstate = .label ∧ ∃ byte, i = .rx byte) ∧
  (t.ps.val ≠ s.ps.val → s.ps.pstate = .value ∧ ∃ byte, i = .rx byte) ∧
  (t.ps.store ≠ s.ps.store → s.ps.pstate = .trailer ∧ ∃ byte, i = .rx byte) ∧
  (t.pResult ≠ s.pResult → i = .startread ∨ i = .stopread ∨ i = .regl ∨ i = .unregl) ∧
  (t.fault ≠ s.fault → i = .tick ∨ i = .regl ∨ ∃ baud pin, i = .beginTx baud pin) ∧
  (t.statusLog ≠ s.statusLog → i = .endTx ∨ i = .pstop ∨ i = .timeout ∨ ∃ byte, i = .rx byte) ∧
  (t.errLog ≠ s.errLog → (∃ b g, i = .enq b g) ∨ i = .timeout ∨ ∃ byte, i = .rx byte) ∧
  (t.notifyLog ≠ s.notifyLog → ∃ byte, i = .rx byte)

/-- R20: the engine bit of an event's word (R80) bounds what the event can write: a TX event leaves the parser engine alone and a parser
event the TX engine. `schedLog` and `held` are the model's (log entries 10, 3). -/
def Obligations.EngineBitBoundsTheEffect : Prop := ∀ (i : Instr) (s t : State), exec i s = .next t →
  ((encode i).getLsbD 31 = false → t.ps = s.ps ∧ t.pResult = s.pResult ∧ t.notifyLog = s.notifyLog) ∧
  ((encode i).getLsbD 31 = true → t.tx = s.tx ∧ t.txResult = s.txResult ∧ t.schedLog = s.schedLog ∧ t.held = s.held)

/-- R20, R80: no event reads the other engine's state: replacing it by any other changes nothing of the outcome but itself. -/
def Obligations.EnginesDoNotInterfere : Prop :=
  (∀ (i : Instr) (s : State) (P : ParserEngine) (r : Status), (encode i).getLsbD 31 = false →
    exec i { s with ps := P, pResult := r } = match exec i s with
      | .next t => .next { t with ps := P, pResult := r }
      | .fault f => .fault f
      | .refused f => .refused f) ∧
  (∀ (i : Instr) (s : State) (T : TxEngine) (r : Status), (encode i).getLsbD 31 = true →
    exec i { s with tx := T, txResult := r } = match exec i s with
      | .next t => .next { t with tx := T, txResult := r }
      | .fault f => .fault f
      | .refused f => .refused f)

/-! ### Invariants and reset -/

/-- R34: every step keeps the TX engine's invariants I1 to I7. -/
def Obligations.StepKeepsTxInvariants : Prop := ∀ s t : State, TxInv s → step s = .next t → TxInv t

/-- R34 I8: every event keeps the wire in whole bytes and the part of the byte in flight, but an END of COOP that cuts a byte short. -/
def Obligations.EventsKeepWireInvariant : Prop := ∀ (i : Instr) (s t : State), TxInv s → WireInv s → exec i s = .next t →
  ¬(i = .endTx ∧ s.params.variant = .coop ∧ s.tx.timerRun = true) → WireInv t

/-- R45: every step keeps the parser engine's invariants P1, P3, P4, P5. -/
def Obligations.StepKeepsParserInvariants : Prop := ∀ s t : State, ParserInv s → step s = .next t → ParserInv t

/-- R40, R214, R244: every step keeps one cell per row with its row's kind, and holds only FLUSH and END of SIMPLE. -/
def Obligations.StepKeepsStoreAndHeldCommand : Prop := ∀ s t : State, step s = .next t →
  (ParserInv s → StoreInv s → StoreInv t) ∧ (HeldInv s → HeldInv t)

/-- R34, R45: the reset state of every parameter set is a good state. -/
def Obligations.ResetStateIsGood : Prop := ∀ p : Params, (State.resetOf p).Inv ∧ WireInv (State.resetOf p)

/-- R270, R271: the reset values, and that the reset input gives them from any state; no asynchronous event is enabled or expected. -/
def Obligations.ResetGivesEveryElementItsValue : Prop := ∀ (s : State) (r : State),
  r = s.applyReset ∨ r = State.resetOf s.params →
  r.tx.q = [] ∧ r.tx.busy = false ∧ r.tx.cur = 0x00#8 ∧ r.tx.cursor = 0#4 ∧ r.tx.line = true ∧ r.tx.oe = false ∧
  r.tx.timerRun = false ∧ r.tx.begun = false ∧ r.tx.pin = 0#5 ∧ r.tx.baud = 0#22 ∧ r.tx.period = 0#32 ∧ r.tx.slotUs = 0#32 ∧
  r.tx.gs = .none ∧ r.tx.wire = [] ∧ r.ps.pstate = .stopped ∧ r.ps.lablen = 0#3 ∧ r.ps.vallen = 0#4 ∧
  r.ps.lab = List.replicate s.params.labelMax.val 0x00#7 ∧ r.ps.val = List.replicate s.params.valueMax.val 0x00#7 ∧
  r.ps.stopReq = false ∧ r.ps.listener = false ∧
  r.ps.store = s.params.registry.map (fun row => { valid := false, value := zeroValue row.kind }) ∧
  r.fault = none ∧ r.txResult = .ok ∧ r.pResult = .ok ∧ r.statusLog = [] ∧ r.errLog = [] ∧ r.notifyLog = [] ∧
  r.tickEnabled = false ∧ r.readEnabled = false ∧ r.prepareExpected = false

/-! ### The ring -/

/-- R64: the ring representation refines the queue: reset, `Push` and `Pop` keep it well-formed and do to the sequence it stands for
what R62 and R63 do to `q`, for every capacity. -/
def Obligations.RingRefinesTheQueue : Prop := ∀ qcap : Nat, 1 ≤ qcap →
  ((Ring.reset qcap).wf qcap ∧ (Ring.reset qcap).queue qcap = []) ∧
  (∀ (r : Ring) (t : TxEngine) (b : Byte), r.wf qcap → t.q = r.queue qcap →
    (t.push qcap b = none ∧ r.push qcap b = none) ∨
    (∃ r' t', t.push qcap b = some t' ∧ r.push qcap b = some r' ∧ r'.wf qcap ∧ t'.q = r'.queue qcap)) ∧
  (∀ (r : Ring) (t : TxEngine), r.wf qcap → t.q = r.queue qcap →
    (t.pop = none ∧ r.pop qcap = none) ∨
    (∃ b r' t', t.pop = some (b, t') ∧ r.pop qcap = some (b, r') ∧ r'.wf qcap ∧ t'.q = r'.queue qcap))
end

