-- ==== Sys2Proof/Laws/Encoding.lean ====
section
/-! SUPPORT. Event words as numbers: what a field of a word is, and the number each encoded event is. -/

namespace Sys2Proof

theorem extract_toNat (w : Word) (a n : Nat) : (w.extractLsb' a n).toNat = w.toNat / 2 ^ a % 2 ^ n := by
  simp [BitVec.extractLsb'_toNat, Nat.shiftRight_eq_div_pow]

theorem bit_eq_decide (w : Word) (a : Nat) : w.getLsbD a = decide (w.toNat / 2 ^ a % 2 = 1) := by
  simp [BitVec.getLsbD, Nat.testBit, Nat.shiftRight_eq_div_pow]
  by_cases h : w.toNat / 2 ^ a % 2 = 1 <;> simp [h]

/-- A field put at its place is its number times the place's weight. -/
theorem field_toNat {n k : Nat} (x : BitVec n) (hn : n + k ≤ 32) : (x.setWidth 32 <<< k).toNat = x.toNat * 2 ^ k := by
  have h : x.toNat * 2 ^ k < 2 ^ 32 := calc
    _ < 2 ^ n * 2 ^ k := Nat.mul_lt_mul_of_pos_right x.isLt (Nat.two_pow_pos k)
    _ = 2 ^ (n + k) := (Nat.pow_add 2 n k).symm
    _ ≤ _ := Nat.pow_le_pow_right (by decide) hn
  have h' : x.toNat < 2 ^ 32 := Nat.lt_of_lt_of_le x.isLt (Nat.pow_le_pow_right (by decide) (by omega))
  rw [BitVec.toNat_shiftLeft, BitVec.toNat_setWidth, Nat.shiftLeft_eq, Nat.mod_eq_of_lt h', Nat.mod_eq_of_lt h]

theorem encode_toNat (i : Instr) : (encode i).toNat = (i.opcode.toNat * 2 ^ 27 + i.operandBits.toNat) % 2 ^ 32 := by
  rw [encode, BitVec.toNat_add, field_toNat _ (by omega)]

theorem encode_beginTx_toNat (baud : Baud) (pin : Pin) :
    (encode (.beginTx baud pin)).toNat = 2 ^ 27 + pin.toNat * 2 ^ 22 + baud.toNat := by
  have := pin.isLt
  have := baud.isLt
  rw [encode_toNat, Instr.operandBits, BitVec.toNat_add, field_toNat _ (by omega)]
  simp only [Instr.opcode, BitVec.toNat_ofNat, BitVec.toNat_setWidth]
  omega

theorem encode_enq_toNat (byte : Byte) (g : Bool) : (encode (.enq byte g)).toNat = 2 ^ 28 + g.toNat * 2 ^ 8 + byte.toNat := by
  have := byte.isLt
  have := g.toNat_lt
  rw [encode_toNat, Instr.operandBits, BitVec.toNat_add, field_toNat _ (by omega)]
  simp only [Instr.opcode, BitVec.toNat_ofNat, BitVec.toNat_setWidth, BitVec.toNat_ofBool]
  omega

theorem encode_rx_toNat (byte : Byte) : (encode (.rx byte)).toNat = 24 * 2 ^ 27 + byte.toNat := by
  have := byte.isLt
  rw [encode_toNat, Instr.operandBits]
  simp only [Instr.opcode, BitVec.toNat_ofNat, BitVec.toNat_setWidth]
  omega

/-- Operands below bit 27 leave the opcode field to the opcode. -/
theorem opField_encode_of_lt {i : Instr} (h : i.operandBits.toNat < 2 ^ 27) : opField (encode i) = i.opcode := by
  have := i.opcode.isLt
  apply BitVec.eq_of_toNat_eq
  rw [opField, extract_toNat, encode_toNat]
  omega

end Sys2Proof
end

