-- ==== Sys2Proof/Laws/State.lean ====
section
/-! SUPPORT. What each update of the state does to each field: one lemma per field per update. -/

namespace Sys2Proof.Machine

/-! ### `State.log` -/

@[simp] theorem State.log_params (e : Status) (s : State) : (s.log e).params = s.params := rfl
@[simp] theorem State.log_tx (e : Status) (s : State) : (s.log e).tx = s.tx := rfl
@[simp] theorem State.log_ps (e : Status) (s : State) : (s.log e).ps = s.ps := rfl
@[simp] theorem State.log_fault (e : Status) (s : State) : (s.log e).fault = s.fault := rfl
@[simp] theorem State.log_txResult (e : Status) (s : State) : (s.log e).txResult = s.txResult := rfl
@[simp] theorem State.log_pResult (e : Status) (s : State) : (s.log e).pResult = s.pResult := rfl
@[simp] theorem State.log_statusLog (e : Status) (s : State) : (s.log e).statusLog = s.statusLog := rfl
@[simp] theorem State.log_errLog (e : Status) (s : State) : (s.log e).errLog = s.errLog ++ [e] := rfl
@[simp] theorem State.log_notifyLog (e : Status) (s : State) : (s.log e).notifyLog = s.notifyLog := rfl
@[simp] theorem State.log_schedLog (e : Status) (s : State) : (s.log e).schedLog = s.schedLog := rfl
@[simp] theorem State.log_held (e : Status) (s : State) : (s.log e).held = s.held := rfl
@[simp] theorem State.log_port (e : Status) (s : State) : (s.log e).port = s.port := rfl

/-! ### `State.note` -/

@[simp] theorem State.note_params (n : Status) (s : State) : (s.note n).params = s.params := rfl
@[simp] theorem State.note_tx (n : Status) (s : State) : (s.note n).tx = s.tx := rfl
@[simp] theorem State.note_ps (n : Status) (s : State) : (s.note n).ps = s.ps := rfl
@[simp] theorem State.note_fault (n : Status) (s : State) : (s.note n).fault = s.fault := rfl
@[simp] theorem State.note_txResult (n : Status) (s : State) : (s.note n).txResult = s.txResult := rfl
@[simp] theorem State.note_pResult (n : Status) (s : State) : (s.note n).pResult = s.pResult := rfl
@[simp] theorem State.note_statusLog (n : Status) (s : State) : (s.note n).statusLog = s.statusLog ++ [n] := rfl
@[simp] theorem State.note_errLog (n : Status) (s : State) : (s.note n).errLog = s.errLog := rfl
@[simp] theorem State.note_notifyLog (n : Status) (s : State) : (s.note n).notifyLog = s.notifyLog := rfl
@[simp] theorem State.note_schedLog (n : Status) (s : State) : (s.note n).schedLog = s.schedLog := rfl
@[simp] theorem State.note_held (n : Status) (s : State) : (s.note n).held = s.held := rfl
@[simp] theorem State.note_port (n : Status) (s : State) : (s.note n).port = s.port := rfl

/-! ### `State.report` -/

@[simp] theorem State.report_params (e : Status) (s : State) : (s.report e).params = s.params := rfl
@[simp] theorem State.report_tx (e : Status) (s : State) : (s.report e).tx = s.tx := rfl
@[simp] theorem State.report_ps (e : Status) (s : State) : (s.report e).ps = s.ps := rfl
@[simp] theorem State.report_fault (e : Status) (s : State) : (s.report e).fault = s.fault := rfl
@[simp] theorem State.report_txResult (e : Status) (s : State) : (s.report e).txResult = s.txResult := rfl
@[simp] theorem State.report_pResult (e : Status) (s : State) : (s.report e).pResult = s.pResult := rfl
@[simp] theorem State.report_statusLog (e : Status) (s : State) : (s.report e).statusLog = s.statusLog ++ [e] := rfl
@[simp] theorem State.report_errLog (e : Status) (s : State) : (s.report e).errLog = s.errLog ++ [e] := rfl
@[simp] theorem State.report_notifyLog (e : Status) (s : State) : (s.report e).notifyLog = s.notifyLog := rfl
@[simp] theorem State.report_schedLog (e : Status) (s : State) : (s.report e).schedLog = s.schedLog := rfl
@[simp] theorem State.report_held (e : Status) (s : State) : (s.report e).held = s.held := rfl
@[simp] theorem State.report_port (e : Status) (s : State) : (s.report e).port = s.port := rfl

/-! ### `State.notify` -/

@[simp] theorem State.notify_params (r : FieldChanged) (s : State) : (s.notify r).params = s.params := rfl
@[simp] theorem State.notify_tx (r : FieldChanged) (s : State) : (s.notify r).tx = s.tx := rfl
@[simp] theorem State.notify_ps (r : FieldChanged) (s : State) : (s.notify r).ps = s.ps := rfl
@[simp] theorem State.notify_fault (r : FieldChanged) (s : State) : (s.notify r).fault = s.fault := rfl
@[simp] theorem State.notify_txResult (r : FieldChanged) (s : State) : (s.notify r).txResult = s.txResult := rfl
@[simp] theorem State.notify_pResult (r : FieldChanged) (s : State) : (s.notify r).pResult = s.pResult := rfl
@[simp] theorem State.notify_statusLog (r : FieldChanged) (s : State) : (s.notify r).statusLog = s.statusLog := rfl
@[simp] theorem State.notify_errLog (r : FieldChanged) (s : State) : (s.notify r).errLog = s.errLog := rfl
@[simp] theorem State.notify_notifyLog (r : FieldChanged) (s : State) : (s.notify r).notifyLog = s.notifyLog ++ [r] := rfl
@[simp] theorem State.notify_schedLog (r : FieldChanged) (s : State) : (s.notify r).schedLog = s.schedLog := rfl
@[simp] theorem State.notify_held (r : FieldChanged) (s : State) : (s.notify r).held = s.held := rfl
@[simp] theorem State.notify_port (r : FieldChanged) (s : State) : (s.notify r).port = s.port := rfl

/-! ### `State.emit` -/

@[simp] theorem State.emit_params (o : SchedOut) (s : State) : (s.emit o).params = s.params := rfl
@[simp] theorem State.emit_tx (o : SchedOut) (s : State) : (s.emit o).tx = s.tx := rfl
@[simp] theorem State.emit_ps (o : SchedOut) (s : State) : (s.emit o).ps = s.ps := rfl
@[simp] theorem State.emit_fault (o : SchedOut) (s : State) : (s.emit o).fault = s.fault := rfl
@[simp] theorem State.emit_txResult (o : SchedOut) (s : State) : (s.emit o).txResult = s.txResult := rfl
@[simp] theorem State.emit_pResult (o : SchedOut) (s : State) : (s.emit o).pResult = s.pResult := rfl
@[simp] theorem State.emit_statusLog (o : SchedOut) (s : State) : (s.emit o).statusLog = s.statusLog := rfl
@[simp] theorem State.emit_errLog (o : SchedOut) (s : State) : (s.emit o).errLog = s.errLog := rfl
@[simp] theorem State.emit_notifyLog (o : SchedOut) (s : State) : (s.emit o).notifyLog = s.notifyLog := rfl
@[simp] theorem State.emit_schedLog (o : SchedOut) (s : State) : (s.emit o).schedLog = s.schedLog ++ [o] := rfl
@[simp] theorem State.emit_held (o : SchedOut) (s : State) : (s.emit o).held = s.held := rfl
@[simp] theorem State.emit_port (o : SchedOut) (s : State) : (s.emit o).port = s.port := rfl

/-! ### `State.goto` -/

@[simp] theorem State.goto_params (q : PState) (s : State) : (s.goto q).params = s.params := rfl
@[simp] theorem State.goto_tx (q : PState) (s : State) : (s.goto q).tx = s.tx := rfl
@[simp] theorem State.goto_ps (q : PState) (s : State) : (s.goto q).ps = { s.ps with pstate := q } := rfl
@[simp] theorem State.goto_fault (q : PState) (s : State) : (s.goto q).fault = s.fault := rfl
@[simp] theorem State.goto_txResult (q : PState) (s : State) : (s.goto q).txResult = s.txResult := rfl
@[simp] theorem State.goto_pResult (q : PState) (s : State) : (s.goto q).pResult = s.pResult := rfl
@[simp] theorem State.goto_statusLog (q : PState) (s : State) : (s.goto q).statusLog = s.statusLog := rfl
@[simp] theorem State.goto_errLog (q : PState) (s : State) : (s.goto q).errLog = s.errLog := rfl
@[simp] theorem State.goto_notifyLog (q : PState) (s : State) : (s.goto q).notifyLog = s.notifyLog := rfl
@[simp] theorem State.goto_schedLog (q : PState) (s : State) : (s.goto q).schedLog = s.schedLog := rfl
@[simp] theorem State.goto_held (q : PState) (s : State) : (s.goto q).held = s.held := rfl
@[simp] theorem State.goto_port (q : PState) (s : State) : (s.goto q).port = s.port := rfl

/-! ### `State.abort` -/

@[simp] theorem State.abort_params (e : Status) (s : State) : (s.abort e).params = s.params := rfl
@[simp] theorem State.abort_tx (e : Status) (s : State) : (s.abort e).tx = s.tx := rfl
@[simp] theorem State.abort_ps (e : Status) (s : State) : (s.abort e).ps = { s.ps with pstate := .waitStart } := rfl
@[simp] theorem State.abort_fault (e : Status) (s : State) : (s.abort e).fault = s.fault := rfl
@[simp] theorem State.abort_txResult (e : Status) (s : State) : (s.abort e).txResult = s.txResult := rfl
@[simp] theorem State.abort_pResult (e : Status) (s : State) : (s.abort e).pResult = s.pResult := rfl
@[simp] theorem State.abort_statusLog (e : Status) (s : State) : (s.abort e).statusLog = s.statusLog ++ [e] := rfl
@[simp] theorem State.abort_errLog (e : Status) (s : State) : (s.abort e).errLog = s.errLog ++ [e] := rfl
@[simp] theorem State.abort_notifyLog (e : Status) (s : State) : (s.abort e).notifyLog = s.notifyLog := rfl
@[simp] theorem State.abort_schedLog (e : Status) (s : State) : (s.abort e).schedLog = s.schedLog := rfl
@[simp] theorem State.abort_held (e : Status) (s : State) : (s.abort e).held = s.held := rfl
@[simp] theorem State.abort_port (e : Status) (s : State) : (s.abort e).port = s.port := rfl

/-! ### `State.setField` -/

@[simp] theorem State.setField_params (fid : Nat) (d : FieldValue) (s : State) : (s.setField fid d).params = s.params := rfl
@[simp] theorem State.setField_tx (fid : Nat) (d : FieldValue) (s : State) : (s.setField fid d).tx = s.tx := rfl
@[simp] theorem State.setField_ps (fid : Nat) (d : FieldValue) (s : State) : (s.setField fid d).ps = { s.ps with store := s.ps.store.set fid { valid := true, value := d } } := rfl
@[simp] theorem State.setField_fault (fid : Nat) (d : FieldValue) (s : State) : (s.setField fid d).fault = s.fault := rfl
@[simp] theorem State.setField_txResult (fid : Nat) (d : FieldValue) (s : State) : (s.setField fid d).txResult = s.txResult := rfl
@[simp] theorem State.setField_pResult (fid : Nat) (d : FieldValue) (s : State) : (s.setField fid d).pResult = s.pResult := rfl
@[simp] theorem State.setField_statusLog (fid : Nat) (d : FieldValue) (s : State) : (s.setField fid d).statusLog = s.statusLog := rfl
@[simp] theorem State.setField_errLog (fid : Nat) (d : FieldValue) (s : State) : (s.setField fid d).errLog = s.errLog := rfl
@[simp] theorem State.setField_notifyLog (fid : Nat) (d : FieldValue) (s : State) : (s.setField fid d).notifyLog = s.notifyLog := rfl
@[simp] theorem State.setField_schedLog (fid : Nat) (d : FieldValue) (s : State) : (s.setField fid d).schedLog = s.schedLog := rfl
@[simp] theorem State.setField_held (fid : Nat) (d : FieldValue) (s : State) : (s.setField fid d).held = s.held := rfl
@[simp] theorem State.setField_port (fid : Nat) (d : FieldValue) (s : State) : (s.setField fid d).port = s.port := rfl

/-! ### `State.applyReset` -/

@[simp] theorem State.applyReset_params (s : State) : s.applyReset.params = s.params := rfl
@[simp] theorem State.applyReset_tx (s : State) : s.applyReset.tx = TxEngine.reset := rfl
@[simp] theorem State.applyReset_ps (s : State) : s.applyReset.ps = ParserEngine.resetOf s.params := rfl
@[simp] theorem State.applyReset_fault (s : State) : s.applyReset.fault = none := rfl
@[simp] theorem State.applyReset_txResult (s : State) : s.applyReset.txResult = .ok := rfl
@[simp] theorem State.applyReset_pResult (s : State) : s.applyReset.pResult = .ok := rfl
@[simp] theorem State.applyReset_statusLog (s : State) : s.applyReset.statusLog = [] := rfl
@[simp] theorem State.applyReset_errLog (s : State) : s.applyReset.errLog = [] := rfl
@[simp] theorem State.applyReset_notifyLog (s : State) : s.applyReset.notifyLog = [] := rfl
@[simp] theorem State.applyReset_schedLog (s : State) : s.applyReset.schedLog = [] := rfl
@[simp] theorem State.applyReset_held (s : State) : s.applyReset.held = none := rfl
@[simp] theorem State.applyReset_port (s : State) : s.applyReset.port = s.port := rfl

/-! ### `State.answer` -/

@[simp] theorem State.answer_params (o : SchedOut) (s : State) : (s.answer o).params = s.params := by
  unfold State.answer; split <;> simp_all
@[simp] theorem State.answer_tx (o : SchedOut) (s : State) : (s.answer o).tx = s.tx := by
  unfold State.answer; split <;> simp_all
@[simp] theorem State.answer_ps (o : SchedOut) (s : State) : (s.answer o).ps = s.ps := by
  unfold State.answer; split <;> simp_all
@[simp] theorem State.answer_fault (o : SchedOut) (s : State) : (s.answer o).fault = s.fault := by
  unfold State.answer; split <;> simp_all
@[simp] theorem State.answer_txResult (o : SchedOut) (s : State) : (s.answer o).txResult = s.txResult := by
  unfold State.answer; split <;> simp_all
@[simp] theorem State.answer_pResult (o : SchedOut) (s : State) : (s.answer o).pResult = s.pResult := by
  unfold State.answer; split <;> simp_all
@[simp] theorem State.answer_statusLog (o : SchedOut) (s : State) : (s.answer o).statusLog = s.statusLog := by
  unfold State.answer; split <;> simp_all
@[simp] theorem State.answer_errLog (o : SchedOut) (s : State) : (s.answer o).errLog = s.errLog := by
  unfold State.answer; split <;> simp_all
@[simp] theorem State.answer_notifyLog (o : SchedOut) (s : State) : (s.answer o).notifyLog = s.notifyLog := by
  unfold State.answer; split <;> simp_all
@[simp] theorem State.answer_schedLog (o : SchedOut) (s : State) : (s.answer o).schedLog = if s.isSimple then s.schedLog else s.schedLog ++ [o] := by
  unfold State.answer; split <;> simp_all
@[simp] theorem State.answer_held (o : SchedOut) (s : State) : (s.answer o).held = s.held := by
  unfold State.answer; split <;> simp_all
@[simp] theorem State.answer_port (o : SchedOut) (s : State) : (s.answer o).port = s.port := by
  unfold State.answer; split <;> simp_all

/-! ### `State.noteReleased` -/

@[simp] theorem State.noteReleased_params (s : State) : s.noteReleased.params = s.params := by
  unfold State.noteReleased; split <;> simp_all
@[simp] theorem State.noteReleased_tx (s : State) : s.noteReleased.tx = s.tx := by
  unfold State.noteReleased; split <;> simp_all
@[simp] theorem State.noteReleased_ps (s : State) : s.noteReleased.ps = s.ps := by
  unfold State.noteReleased; split <;> simp_all
@[simp] theorem State.noteReleased_fault (s : State) : s.noteReleased.fault = s.fault := by
  unfold State.noteReleased; split <;> simp_all
@[simp] theorem State.noteReleased_txResult (s : State) : s.noteReleased.txResult = s.txResult := by
  unfold State.noteReleased; split <;> simp_all
@[simp] theorem State.noteReleased_pResult (s : State) : s.noteReleased.pResult = s.pResult := by
  unfold State.noteReleased; split <;> simp_all
@[simp] theorem State.noteReleased_statusLog (s : State) : s.noteReleased.statusLog = if s.tx.gs = .none then s.statusLog else s.statusLog ++ [.released] := by
  unfold State.noteReleased; split <;> simp_all
@[simp] theorem State.noteReleased_errLog (s : State) : s.noteReleased.errLog = s.errLog := by
  unfold State.noteReleased; split <;> simp_all
@[simp] theorem State.noteReleased_notifyLog (s : State) : s.noteReleased.notifyLog = s.notifyLog := by
  unfold State.noteReleased; split <;> simp_all
@[simp] theorem State.noteReleased_schedLog (s : State) : s.noteReleased.schedLog = s.schedLog := by
  unfold State.noteReleased; split <;> simp_all
@[simp] theorem State.noteReleased_held (s : State) : s.noteReleased.held = s.held := by
  unfold State.noteReleased; split <;> simp_all
@[simp] theorem State.noteReleased_port (s : State) : s.noteReleased.port = s.port := by
  unfold State.noteReleased; split <;> simp_all

/-! ### `State.notifyChange` -/

@[simp] theorem State.notifyChange_params (fid : Nat) (kind : Kind) (d : FieldValue) (s : State) : (s.notifyChange fid kind d).params = s.params := by
  unfold State.notifyChange; split <;> simp_all
@[simp] theorem State.notifyChange_tx (fid : Nat) (kind : Kind) (d : FieldValue) (s : State) : (s.notifyChange fid kind d).tx = s.tx := by
  unfold State.notifyChange; split <;> simp_all
@[simp] theorem State.notifyChange_ps (fid : Nat) (kind : Kind) (d : FieldValue) (s : State) : (s.notifyChange fid kind d).ps = s.ps := by
  unfold State.notifyChange; split <;> simp_all
@[simp] theorem State.notifyChange_fault (fid : Nat) (kind : Kind) (d : FieldValue) (s : State) : (s.notifyChange fid kind d).fault = s.fault := by
  unfold State.notifyChange; split <;> simp_all
@[simp] theorem State.notifyChange_txResult (fid : Nat) (kind : Kind) (d : FieldValue) (s : State) : (s.notifyChange fid kind d).txResult = s.txResult := by
  unfold State.notifyChange; split <;> simp_all
@[simp] theorem State.notifyChange_pResult (fid : Nat) (kind : Kind) (d : FieldValue) (s : State) : (s.notifyChange fid kind d).pResult = s.pResult := by
  unfold State.notifyChange; split <;> simp_all
@[simp] theorem State.notifyChange_statusLog (fid : Nat) (kind : Kind) (d : FieldValue) (s : State) : (s.notifyChange fid kind d).statusLog = s.statusLog := by
  unfold State.notifyChange; split <;> simp_all
@[simp] theorem State.notifyChange_errLog (fid : Nat) (kind : Kind) (d : FieldValue) (s : State) : (s.notifyChange fid kind d).errLog = s.errLog := by
  unfold State.notifyChange; split <;> simp_all
@[simp] theorem State.notifyChange_notifyLog (fid : Nat) (kind : Kind) (d : FieldValue) (s : State) : (s.notifyChange fid kind d).notifyLog = if s.ps.listener then s.notifyLog ++ [{ fid := fid, kind := kind, value := d }] else s.notifyLog := by
  unfold State.notifyChange; split <;> simp_all
@[simp] theorem State.notifyChange_schedLog (fid : Nat) (kind : Kind) (d : FieldValue) (s : State) : (s.notifyChange fid kind d).schedLog = s.schedLog := by
  unfold State.notifyChange; split <;> simp_all
@[simp] theorem State.notifyChange_held (fid : Nat) (kind : Kind) (d : FieldValue) (s : State) : (s.notifyChange fid kind d).held = s.held := by
  unfold State.notifyChange; split <;> simp_all
@[simp] theorem State.notifyChange_port (fid : Nat) (kind : Kind) (d : FieldValue) (s : State) : (s.notifyChange fid kind d).port = s.port := by
  unfold State.notifyChange; split <;> simp_all

/-! ### `State.latch` -/

@[simp] theorem State.latch_params (c : FatalCode) (s : State) : (s.latch c).params = s.params := by
  unfold State.latch; split <;> simp_all
@[simp] theorem State.latch_tx (c : FatalCode) (s : State) : (s.latch c).tx = s.tx := by
  unfold State.latch; split <;> simp_all
@[simp] theorem State.latch_ps (c : FatalCode) (s : State) : (s.latch c).ps = s.ps := by
  unfold State.latch; split <;> simp_all
@[simp] theorem State.latch_fault (c : FatalCode) (s : State) : (s.latch c).fault = match s.fault with | none => some c | some f => some f := by
  unfold State.latch; split <;> simp_all
@[simp] theorem State.latch_txResult (c : FatalCode) (s : State) : (s.latch c).txResult = s.txResult := by
  unfold State.latch; split <;> simp_all
@[simp] theorem State.latch_pResult (c : FatalCode) (s : State) : (s.latch c).pResult = s.pResult := by
  unfold State.latch; split <;> simp_all
@[simp] theorem State.latch_statusLog (c : FatalCode) (s : State) : (s.latch c).statusLog = s.statusLog := by
  unfold State.latch; split <;> simp_all
@[simp] theorem State.latch_errLog (c : FatalCode) (s : State) : (s.latch c).errLog = s.errLog := by
  unfold State.latch; split <;> simp_all
@[simp] theorem State.latch_notifyLog (c : FatalCode) (s : State) : (s.latch c).notifyLog = s.notifyLog := by
  unfold State.latch; split <;> simp_all
@[simp] theorem State.latch_schedLog (c : FatalCode) (s : State) : (s.latch c).schedLog = s.schedLog := by
  unfold State.latch; split <;> simp_all
@[simp] theorem State.latch_held (c : FatalCode) (s : State) : (s.latch c).held = s.held := by
  unfold State.latch; split <;> simp_all
@[simp] theorem State.latch_port (c : FatalCode) (s : State) : (s.latch c).port = s.port := by
  unfold State.latch; split <;> simp_all

/-! ### `TxEngine.append` -/

@[simp] theorem TxEngine.append_q (b : Byte) (t : TxEngine) : (t.append b).q = t.q ++ [b] := rfl
@[simp] theorem TxEngine.append_busy (b : Byte) (t : TxEngine) : (t.append b).busy = t.busy := rfl
@[simp] theorem TxEngine.append_cur (b : Byte) (t : TxEngine) : (t.append b).cur = t.cur := rfl
@[simp] theorem TxEngine.append_cursor (b : Byte) (t : TxEngine) : (t.append b).cursor = t.cursor := rfl
@[simp] theorem TxEngine.append_line (b : Byte) (t : TxEngine) : (t.append b).line = t.line := rfl
@[simp] theorem TxEngine.append_oe (b : Byte) (t : TxEngine) : (t.append b).oe = t.oe := rfl
@[simp] theorem TxEngine.append_timerRun (b : Byte) (t : TxEngine) : (t.append b).timerRun = t.timerRun := rfl
@[simp] theorem TxEngine.append_begun (b : Byte) (t : TxEngine) : (t.append b).begun = t.begun := rfl
@[simp] theorem TxEngine.append_pin (b : Byte) (t : TxEngine) : (t.append b).pin = t.pin := rfl
@[simp] theorem TxEngine.append_baud (b : Byte) (t : TxEngine) : (t.append b).baud = t.baud := rfl
@[simp] theorem TxEngine.append_period (b : Byte) (t : TxEngine) : (t.append b).period = t.period := rfl
@[simp] theorem TxEngine.append_slotUs (b : Byte) (t : TxEngine) : (t.append b).slotUs = t.slotUs := rfl
@[simp] theorem TxEngine.append_gs (b : Byte) (t : TxEngine) : (t.append b).gs = t.gs := rfl
@[simp] theorem TxEngine.append_wire (b : Byte) (t : TxEngine) : (t.append b).wire = t.wire := rfl

/-! ### `TxEngine.drive` -/

@[simp] theorem TxEngine.drive_q (l : Bool) (t : TxEngine) : (t.drive l).q = t.q := rfl
@[simp] theorem TxEngine.drive_busy (l : Bool) (t : TxEngine) : (t.drive l).busy = t.busy := rfl
@[simp] theorem TxEngine.drive_cur (l : Bool) (t : TxEngine) : (t.drive l).cur = t.cur := rfl
@[simp] theorem TxEngine.drive_cursor (l : Bool) (t : TxEngine) : (t.drive l).cursor = t.cursor := rfl
@[simp] theorem TxEngine.drive_line (l : Bool) (t : TxEngine) : (t.drive l).line = l := rfl
@[simp] theorem TxEngine.drive_oe (l : Bool) (t : TxEngine) : (t.drive l).oe = t.oe := rfl
@[simp] theorem TxEngine.drive_timerRun (l : Bool) (t : TxEngine) : (t.drive l).timerRun = t.timerRun := rfl
@[simp] theorem TxEngine.drive_begun (l : Bool) (t : TxEngine) : (t.drive l).begun = t.begun := rfl
@[simp] theorem TxEngine.drive_pin (l : Bool) (t : TxEngine) : (t.drive l).pin = t.pin := rfl
@[simp] theorem TxEngine.drive_baud (l : Bool) (t : TxEngine) : (t.drive l).baud = t.baud := rfl
@[simp] theorem TxEngine.drive_period (l : Bool) (t : TxEngine) : (t.drive l).period = t.period := rfl
@[simp] theorem TxEngine.drive_slotUs (l : Bool) (t : TxEngine) : (t.drive l).slotUs = t.slotUs := rfl
@[simp] theorem TxEngine.drive_gs (l : Bool) (t : TxEngine) : (t.drive l).gs = t.gs := rfl
@[simp] theorem TxEngine.drive_wire (l : Bool) (t : TxEngine) : (t.drive l).wire = t.wire ++ [l] := rfl

/-! ### `TxEngine.dataBit` -/

@[simp] theorem TxEngine.dataBit_q (t : TxEngine) : t.dataBit.q = t.q := rfl
@[simp] theorem TxEngine.dataBit_busy (t : TxEngine) : t.dataBit.busy = t.busy := rfl
@[simp] theorem TxEngine.dataBit_cur (t : TxEngine) : t.dataBit.cur = t.cur := rfl
@[simp] theorem TxEngine.dataBit_cursor (t : TxEngine) : t.dataBit.cursor = t.cursor + 1#4 := rfl
@[simp] theorem TxEngine.dataBit_line (t : TxEngine) : t.dataBit.line = t.cur.getLsbD t.cursor.toNat := rfl
@[simp] theorem TxEngine.dataBit_oe (t : TxEngine) : t.dataBit.oe = t.oe := rfl
@[simp] theorem TxEngine.dataBit_timerRun (t : TxEngine) : t.dataBit.timerRun = t.timerRun := rfl
@[simp] theorem TxEngine.dataBit_begun (t : TxEngine) : t.dataBit.begun = t.begun := rfl
@[simp] theorem TxEngine.dataBit_pin (t : TxEngine) : t.dataBit.pin = t.pin := rfl
@[simp] theorem TxEngine.dataBit_baud (t : TxEngine) : t.dataBit.baud = t.baud := rfl
@[simp] theorem TxEngine.dataBit_period (t : TxEngine) : t.dataBit.period = t.period := rfl
@[simp] theorem TxEngine.dataBit_slotUs (t : TxEngine) : t.dataBit.slotUs = t.slotUs := rfl
@[simp] theorem TxEngine.dataBit_gs (t : TxEngine) : t.dataBit.gs = t.gs := rfl
@[simp] theorem TxEngine.dataBit_wire (t : TxEngine) : t.dataBit.wire = t.wire ++ [t.cur.getLsbD t.cursor.toNat] := rfl

/-! ### `TxEngine.stopBit` -/

@[simp] theorem TxEngine.stopBit_q (t : TxEngine) : t.stopBit.q = t.q := rfl
@[simp] theorem TxEngine.stopBit_busy (t : TxEngine) : t.stopBit.busy = t.busy := rfl
@[simp] theorem TxEngine.stopBit_cur (t : TxEngine) : t.stopBit.cur = t.cur := rfl
@[simp] theorem TxEngine.stopBit_cursor (t : TxEngine) : t.stopBit.cursor = 9#4 := rfl
@[simp] theorem TxEngine.stopBit_line (t : TxEngine) : t.stopBit.line = true := rfl
@[simp] theorem TxEngine.stopBit_oe (t : TxEngine) : t.stopBit.oe = t.oe := rfl
@[simp] theorem TxEngine.stopBit_timerRun (t : TxEngine) : t.stopBit.timerRun = t.timerRun := rfl
@[simp] theorem TxEngine.stopBit_begun (t : TxEngine) : t.stopBit.begun = t.begun := rfl
@[simp] theorem TxEngine.stopBit_pin (t : TxEngine) : t.stopBit.pin = t.pin := rfl
@[simp] theorem TxEngine.stopBit_baud (t : TxEngine) : t.stopBit.baud = t.baud := rfl
@[simp] theorem TxEngine.stopBit_period (t : TxEngine) : t.stopBit.period = t.period := rfl
@[simp] theorem TxEngine.stopBit_slotUs (t : TxEngine) : t.stopBit.slotUs = t.slotUs := rfl
@[simp] theorem TxEngine.stopBit_gs (t : TxEngine) : t.stopBit.gs = t.gs := rfl
@[simp] theorem TxEngine.stopBit_wire (t : TxEngine) : t.stopBit.wire = t.wire ++ [true] := rfl

/-! ### `TxEngine.goIdle` -/

@[simp] theorem TxEngine.goIdle_q (coop : Bool) (t : TxEngine) : (t.goIdle coop).q = t.q := rfl
@[simp] theorem TxEngine.goIdle_busy (coop : Bool) (t : TxEngine) : (t.goIdle coop).busy = false := rfl
@[simp] theorem TxEngine.goIdle_cur (coop : Bool) (t : TxEngine) : (t.goIdle coop).cur = t.cur := rfl
@[simp] theorem TxEngine.goIdle_cursor (coop : Bool) (t : TxEngine) : (t.goIdle coop).cursor = 0#4 := rfl
@[simp] theorem TxEngine.goIdle_line (coop : Bool) (t : TxEngine) : (t.goIdle coop).line = t.line := rfl
@[simp] theorem TxEngine.goIdle_oe (coop : Bool) (t : TxEngine) : (t.goIdle coop).oe = t.oe := rfl
@[simp] theorem TxEngine.goIdle_timerRun (coop : Bool) (t : TxEngine) : (t.goIdle coop).timerRun = false := rfl
@[simp] theorem TxEngine.goIdle_begun (coop : Bool) (t : TxEngine) : (t.goIdle coop).begun = t.begun := rfl
@[simp] theorem TxEngine.goIdle_pin (coop : Bool) (t : TxEngine) : (t.goIdle coop).pin = t.pin := rfl
@[simp] theorem TxEngine.goIdle_baud (coop : Bool) (t : TxEngine) : (t.goIdle coop).baud = t.baud := rfl
@[simp] theorem TxEngine.goIdle_period (coop : Bool) (t : TxEngine) : (t.goIdle coop).period = t.period := rfl
@[simp] theorem TxEngine.goIdle_slotUs (coop : Bool) (t : TxEngine) : (t.goIdle coop).slotUs = t.slotUs := rfl
@[simp] theorem TxEngine.goIdle_gs (coop : Bool) (t : TxEngine) : (t.goIdle coop).gs = if coop then .none else t.gs := rfl
@[simp] theorem TxEngine.goIdle_wire (coop : Bool) (t : TxEngine) : (t.goIdle coop).wire = t.wire := rfl

/-! ### `TxEngine.abandon` -/

@[simp] theorem TxEngine.abandon_q (t : TxEngine) : t.abandon.q = [] := rfl
@[simp] theorem TxEngine.abandon_busy (t : TxEngine) : t.abandon.busy = false := rfl
@[simp] theorem TxEngine.abandon_cur (t : TxEngine) : t.abandon.cur = t.cur := rfl
@[simp] theorem TxEngine.abandon_cursor (t : TxEngine) : t.abandon.cursor = 0#4 := rfl
@[simp] theorem TxEngine.abandon_line (t : TxEngine) : t.abandon.line = true := rfl
@[simp] theorem TxEngine.abandon_oe (t : TxEngine) : t.abandon.oe = t.oe := rfl
@[simp] theorem TxEngine.abandon_timerRun (t : TxEngine) : t.abandon.timerRun = false := rfl
@[simp] theorem TxEngine.abandon_begun (t : TxEngine) : t.abandon.begun = false := rfl
@[simp] theorem TxEngine.abandon_pin (t : TxEngine) : t.abandon.pin = t.pin := rfl
@[simp] theorem TxEngine.abandon_baud (t : TxEngine) : t.abandon.baud = t.baud := rfl
@[simp] theorem TxEngine.abandon_period (t : TxEngine) : t.abandon.period = t.period := rfl
@[simp] theorem TxEngine.abandon_slotUs (t : TxEngine) : t.abandon.slotUs = t.slotUs := rfl
@[simp] theorem TxEngine.abandon_gs (t : TxEngine) : t.abandon.gs = .none := rfl
@[simp] theorem TxEngine.abandon_wire (t : TxEngine) : t.abandon.wire = t.wire := rfl

/-! ### `TxEngine.configure` -/

@[simp] theorem TxEngine.configure_q (p : Params) (baud : Baud) (pin : Pin) (t : TxEngine) : (t.configure p baud pin).q = t.q := rfl
@[simp] theorem TxEngine.configure_busy (p : Params) (baud : Baud) (pin : Pin) (t : TxEngine) : (t.configure p baud pin).busy = t.busy := rfl
@[simp] theorem TxEngine.configure_cur (p : Params) (baud : Baud) (pin : Pin) (t : TxEngine) : (t.configure p baud pin).cur = t.cur := rfl
@[simp] theorem TxEngine.configure_cursor (p : Params) (baud : Baud) (pin : Pin) (t : TxEngine) : (t.configure p baud pin).cursor = t.cursor := rfl
@[simp] theorem TxEngine.configure_line (p : Params) (baud : Baud) (pin : Pin) (t : TxEngine) : (t.configure p baud pin).line = true := rfl
@[simp] theorem TxEngine.configure_oe (p : Params) (baud : Baud) (pin : Pin) (t : TxEngine) : (t.configure p baud pin).oe = true := rfl
@[simp] theorem TxEngine.configure_timerRun (p : Params) (baud : Baud) (pin : Pin) (t : TxEngine) : (t.configure p baud pin).timerRun = t.timerRun := rfl
@[simp] theorem TxEngine.configure_begun (p : Params) (baud : Baud) (pin : Pin) (t : TxEngine) : (t.configure p baud pin).begun = true := rfl
@[simp] theorem TxEngine.configure_pin (p : Params) (baud : Baud) (pin : Pin) (t : TxEngine) : (t.configure p baud pin).pin = pin := rfl
@[simp] theorem TxEngine.configure_baud (p : Params) (baud : Baud) (pin : Pin) (t : TxEngine) : (t.configure p baud pin).baud = baud := rfl
@[simp] theorem TxEngine.configure_period (p : Params) (baud : Baud) (pin : Pin) (t : TxEngine) : (t.configure p baud pin).period = BitVec.ofNat 32 (bitPeriod p baud) := rfl
@[simp] theorem TxEngine.configure_slotUs (p : Params) (baud : Baud) (pin : Pin) (t : TxEngine) : (t.configure p baud pin).slotUs = BitVec.ofNat 32 (slotLength p baud) := rfl
@[simp] theorem TxEngine.configure_gs (p : Params) (baud : Baud) (pin : Pin) (t : TxEngine) : (t.configure p baud pin).gs = t.gs := rfl
@[simp] theorem TxEngine.configure_wire (p : Params) (baud : Baud) (pin : Pin) (t : TxEngine) : (t.configure p baud pin).wire = t.wire := rfl

/-! ### `TxEngine.startByte`, `startSimple`, `openWindow` -/

@[simp] theorem TxEngine.startByte_busy (t : TxEngine) : t.startByte.busy = t.busy := by
  unfold TxEngine.startByte TxEngine.pop; cases t.q <;> rfl
@[simp] theorem TxEngine.startByte_oe (t : TxEngine) : t.startByte.oe = t.oe := by
  unfold TxEngine.startByte TxEngine.pop; cases t.q <;> rfl
@[simp] theorem TxEngine.startByte_timerRun (t : TxEngine) : t.startByte.timerRun = t.timerRun := by
  unfold TxEngine.startByte TxEngine.pop; cases t.q <;> rfl
@[simp] theorem TxEngine.startByte_begun (t : TxEngine) : t.startByte.begun = t.begun := by
  unfold TxEngine.startByte TxEngine.pop; cases t.q <;> rfl
@[simp] theorem TxEngine.startByte_pin (t : TxEngine) : t.startByte.pin = t.pin := by
  unfold TxEngine.startByte TxEngine.pop; cases t.q <;> rfl
@[simp] theorem TxEngine.startByte_baud (t : TxEngine) : t.startByte.baud = t.baud := by
  unfold TxEngine.startByte TxEngine.pop; cases t.q <;> rfl
@[simp] theorem TxEngine.startByte_period (t : TxEngine) : t.startByte.period = t.period := by
  unfold TxEngine.startByte TxEngine.pop; cases t.q <;> rfl
@[simp] theorem TxEngine.startByte_slotUs (t : TxEngine) : t.startByte.slotUs = t.slotUs := by
  unfold TxEngine.startByte TxEngine.pop; cases t.q <;> rfl
@[simp] theorem TxEngine.startByte_gs (t : TxEngine) : t.startByte.gs = t.gs := by
  unfold TxEngine.startByte TxEngine.pop; cases t.q <;> rfl
@[simp] theorem TxEngine.startByte_q (t : TxEngine) : t.startByte.q = t.q.tail := by
  unfold TxEngine.startByte TxEngine.pop; cases h : t.q <;> simp [h, TxEngine.drive]
@[simp] theorem TxEngine.startSimple_q (t : TxEngine) : t.startSimple.q = t.startByte.q := rfl
@[simp] theorem TxEngine.startSimple_busy (t : TxEngine) : t.startSimple.busy = true := rfl
@[simp] theorem TxEngine.startSimple_cur (t : TxEngine) : t.startSimple.cur = t.startByte.cur := rfl
@[simp] theorem TxEngine.startSimple_cursor (t : TxEngine) : t.startSimple.cursor = t.startByte.cursor := rfl
@[simp] theorem TxEngine.startSimple_line (t : TxEngine) : t.startSimple.line = t.startByte.line := rfl
@[simp] theorem TxEngine.startSimple_oe (t : TxEngine) : t.startSimple.oe = t.startByte.oe := rfl
@[simp] theorem TxEngine.startSimple_timerRun (t : TxEngine) : t.startSimple.timerRun = true := rfl
@[simp] theorem TxEngine.startSimple_begun (t : TxEngine) : t.startSimple.begun = t.startByte.begun := rfl
@[simp] theorem TxEngine.startSimple_pin (t : TxEngine) : t.startSimple.pin = t.startByte.pin := rfl
@[simp] theorem TxEngine.startSimple_baud (t : TxEngine) : t.startSimple.baud = t.startByte.baud := rfl
@[simp] theorem TxEngine.startSimple_period (t : TxEngine) : t.startSimple.period = t.startByte.period := rfl
@[simp] theorem TxEngine.startSimple_slotUs (t : TxEngine) : t.startSimple.slotUs = t.startByte.slotUs := rfl
@[simp] theorem TxEngine.startSimple_gs (t : TxEngine) : t.startSimple.gs = t.startByte.gs := rfl
@[simp] theorem TxEngine.startSimple_wire (t : TxEngine) : t.startSimple.wire = t.startByte.wire := rfl
@[simp] theorem TxEngine.openWindow_q (t : TxEngine) : t.openWindow.q = t.startByte.q := rfl
@[simp] theorem TxEngine.openWindow_busy (t : TxEngine) : t.openWindow.busy = t.startByte.busy := rfl
@[simp] theorem TxEngine.openWindow_cur (t : TxEngine) : t.openWindow.cur = t.startByte.cur := rfl
@[simp] theorem TxEngine.openWindow_cursor (t : TxEngine) : t.openWindow.cursor = t.startByte.cursor := rfl
@[simp] theorem TxEngine.openWindow_line (t : TxEngine) : t.openWindow.line = t.startByte.line := rfl
@[simp] theorem TxEngine.openWindow_oe (t : TxEngine) : t.openWindow.oe = t.startByte.oe := rfl
@[simp] theorem TxEngine.openWindow_timerRun (t : TxEngine) : t.openWindow.timerRun = true := rfl
@[simp] theorem TxEngine.openWindow_begun (t : TxEngine) : t.openWindow.begun = t.startByte.begun := rfl
@[simp] theorem TxEngine.openWindow_pin (t : TxEngine) : t.openWindow.pin = t.startByte.pin := rfl
@[simp] theorem TxEngine.openWindow_baud (t : TxEngine) : t.openWindow.baud = t.startByte.baud := rfl
@[simp] theorem TxEngine.openWindow_period (t : TxEngine) : t.openWindow.period = t.startByte.period := rfl
@[simp] theorem TxEngine.openWindow_slotUs (t : TxEngine) : t.openWindow.slotUs = t.startByte.slotUs := rfl
@[simp] theorem TxEngine.openWindow_gs (t : TxEngine) : t.openWindow.gs = .active := rfl
@[simp] theorem TxEngine.openWindow_wire (t : TxEngine) : t.openWindow.wire = t.startByte.wire := rfl

/-! ### `ParserEngine.appendLabel` -/

@[simp] theorem ParserEngine.appendLabel_pstate (b : Byte7) (p : ParserEngine) : (p.appendLabel b).pstate = p.pstate := rfl
@[simp] theorem ParserEngine.appendLabel_lab (b : Byte7) (p : ParserEngine) : (p.appendLabel b).lab = p.lab.set p.lablen.toNat b := rfl
@[simp] theorem ParserEngine.appendLabel_lablen (b : Byte7) (p : ParserEngine) : (p.appendLabel b).lablen = p.lablen + 1#3 := rfl
@[simp] theorem ParserEngine.appendLabel_val (b : Byte7) (p : ParserEngine) : (p.appendLabel b).val = p.val := rfl
@[simp] theorem ParserEngine.appendLabel_vallen (b : Byte7) (p : ParserEngine) : (p.appendLabel b).vallen = p.vallen := rfl
@[simp] theorem ParserEngine.appendLabel_stopReq (b : Byte7) (p : ParserEngine) : (p.appendLabel b).stopReq = p.stopReq := rfl
@[simp] theorem ParserEngine.appendLabel_listener (b : Byte7) (p : ParserEngine) : (p.appendLabel b).listener = p.listener := rfl
@[simp] theorem ParserEngine.appendLabel_store (b : Byte7) (p : ParserEngine) : (p.appendLabel b).store = p.store := rfl

/-! ### `ParserEngine.appendValue` -/

@[simp] theorem ParserEngine.appendValue_pstate (b : Byte7) (p : ParserEngine) : (p.appendValue b).pstate = p.pstate := rfl
@[simp] theorem ParserEngine.appendValue_lab (b : Byte7) (p : ParserEngine) : (p.appendValue b).lab = p.lab := rfl
@[simp] theorem ParserEngine.appendValue_lablen (b : Byte7) (p : ParserEngine) : (p.appendValue b).lablen = p.lablen := rfl
@[simp] theorem ParserEngine.appendValue_val (b : Byte7) (p : ParserEngine) : (p.appendValue b).val = p.val.set p.vallen.toNat b := rfl
@[simp] theorem ParserEngine.appendValue_vallen (b : Byte7) (p : ParserEngine) : (p.appendValue b).vallen = p.vallen + 1#4 := rfl
@[simp] theorem ParserEngine.appendValue_stopReq (b : Byte7) (p : ParserEngine) : (p.appendValue b).stopReq = p.stopReq := rfl
@[simp] theorem ParserEngine.appendValue_listener (b : Byte7) (p : ParserEngine) : (p.appendValue b).listener = p.listener := rfl
@[simp] theorem ParserEngine.appendValue_store (b : Byte7) (p : ParserEngine) : (p.appendValue b).store = p.store := rfl

end Sys2Proof.Machine
end

