-- ==== Sys2Proof/Laws/Ops.lean ====
section
/-! SUPPORT. One lemma per shared operation that says once everything it can do. -/

namespace Sys2Proof.Machine

/-! ### Guards and the fatal latch -/

theorem halted_eq_false_iff (s : State) : s.halted = false ↔ s.fault = none := by
  cases h : s.fault <;> simp [State.halted, h]

theorem unlessHalted_of_running {s : State} (h : s.fault = none) (r : Result) : unlessHalted s r = r := by
  simp [unlessHalted, (halted_eq_false_iff s).2 h]

theorem unlessHalted_of_halted {s : State} (h : s.fault ≠ none) (r : Result) : unlessHalted s r = .refused .halted := by
  cases hf : s.fault <;> simp_all [unlessHalted, State.halted]

/-- A guarded event that answers a next state ran its own case, in a block that is not halted. -/
theorem unlessHalted_eq_next {s t : State} {r : Result} : unlessHalted s r = .next t ↔ s.fault = none ∧ r = .next t := by
  cases hf : s.fault <;> simp [unlessHalted, State.halted, hf]

theorem whenBegun_of_begun {s : State} (h : s.fault = none) (hb : s.tx.begun = true) (r : Result) : whenBegun s r = r := by
  simp [whenBegun, unlessHalted_of_running h, hb]

theorem whenBegun_eq_next {s t : State} {r : Result} :
    whenBegun s r = .next t ↔ s.fault = none ∧ s.tx.begun = true ∧ r = .next t := by
  rw [whenBegun, unlessHalted_eq_next]
  cases s.tx.begun <;> simp

theorem raiseFatal_of_running {s : State} (h : s.fault = none) (c : FatalCode) :
    raiseFatal c s = .next { s with fault := some c } := by
  simp [raiseFatal, State.latch, h]

/-! ### The queue -/

theorem push_eq_none {qcap : Nat} {b : Byte} {t : TxEngine} : t.push qcap b = none ↔ qcap ≤ t.q.length := by
  unfold TxEngine.push; split <;> simp_all

theorem push_eq_some {qcap : Nat} {b : Byte} {t t' : TxEngine} :
    t.push qcap b = some t' ↔ t.q.length < qcap ∧ t' = t.append b := by
  unfold TxEngine.push; split
  · simp; omega
  · simp; constructor
    · rintro rfl; exact ⟨by omega, rfl⟩
    · rintro ⟨_, rfl⟩; rfl

theorem push_of_room {qcap : Nat} {b : Byte} {t : TxEngine} (h : t.q.length < qcap) : t.push qcap b = some (t.append b) :=
  push_eq_some.2 ⟨h, rfl⟩

theorem startByte_of_cons {t : TxEngine} {b : Byte} {rest : List Byte} (h : t.q = b :: rest) :
    t.startByte = { t with q := rest, cur := b, cursor := 0#4, line := false, wire := t.wire ++ [false] } := by
  simp [TxEngine.startByte, TxEngine.pop, h, TxEngine.drive]

/-- A byte appended to an empty queue is the next byte started. -/
theorem startByte_append_of_nil {t : TxEngine} {b : Byte} (h : t.q = []) :
    (t.append b).startByte = { t with q := [], cur := b, cursor := 0#4, line := false, wire := t.wire ++ [false] } := by
  simp [TxEngine.startByte, TxEngine.pop, h, TxEngine.drive, TxEngine.append]

theorem startByte_of_nil {t : TxEngine} (h : t.q = []) : t.startByte = t := by
  simp [TxEngine.startByte, TxEngine.pop, h]

/-! ### Dispatch -/

/-- Everything `Dispatch` can do: one report, nothing, or one field stored and, with a listener, notified. -/
theorem dispatch_cases (L V : List Byte7) (s : State) :
    (∃ e, dispatch L V s = s.report e) ∨ dispatch L V s = s ∨
    (∃ fid kind d, findField s.params.registry L = some (fid, kind) ∧ decodeField kind V = some d ∧
      s.holdsField fid d = false ∧ dispatch L V s = (s.setField fid d).notifyChange fid kind d) := by
  unfold dispatch
  split
  · exact .inl ⟨_, rfl⟩
  · rename_i fid kind hf
    split
    · exact .inl ⟨_, rfl⟩
    · rename_i d hd
      cases hh : s.holdsField fid d
      · exact .inr (.inr ⟨fid, kind, d, hf, hd, hh, by simp⟩)
      · exact .inr (.inl (by simp))

/-- Where a label is found, its row stands there. -/
theorem findFieldFrom_eq_some {L : List Byte7} {rows : List RegistryRow} {m n : Nat} {kind : Kind}
    (h : findFieldFrom L m rows = some (n, kind)) :
    ∃ k row, n = m + k ∧ rows[k]? = some row ∧ row.label = L ∧ row.kind = kind := by
  induction rows generalizing m with
  | nil => simp [findFieldFrom] at h
  | cons r rs ih =>
    unfold findFieldFrom at h
    split at h
    · rename_i hr
      simp only [Option.some.injEq, Prod.mk.injEq] at h
      exact ⟨0, r, by omega, rfl, hr, h.2⟩
    · obtain ⟨k, row, hn, hg, hl, hk⟩ := ih h
      exact ⟨k + 1, row, by omega, by simpa using hg, hl, hk⟩

theorem findField_eq_some {L : List Byte7} {rows : List RegistryRow} {n : Nat} {kind : Kind}
    (h : findField rows L = some (n, kind)) : ∃ row, rows[n]? = some row ∧ row.label = L ∧ row.kind = kind := by
  obtain ⟨k, row, hn, hg, hl, hk⟩ := findFieldFrom_eq_some h
  obtain rfl : n = k := by omega
  exact ⟨row, hg, hl, hk⟩

/-- A decoded value is tagged with the kind it was decoded as. -/
theorem decodeField_kind {kind : Kind} {V : List Byte7} {d : FieldValue} (h : decodeField kind V = some d) : d.kind = kind := by
  cases kind <;> simp only [decodeField, Option.some.injEq, Option.map_eq_some_iff] at h
  · subst h; rfl
  all_goals obtain ⟨_, _, rfl⟩ := h; rfl

/-- A decoded text is the value received. -/
theorem decodeField_text {kind : Kind} {V bytes : List Byte7} (h : decodeField kind V = some (.text bytes)) : bytes = V := by
  cases kind <;> simp [decodeField] at h
  exact h.symm

/-! ### The buffers -/

/-- A label is no longer than its length says. -/
theorem label_length_le (p : ParserEngine) : p.label.length ≤ p.lablen.toNat := by
  simp only [ParserEngine.label, List.length_take]
  exact Nat.min_le_left _ _

/-- A value is no longer than its length says. -/
theorem value_length_le (p : ParserEngine) : p.value.length ≤ p.vallen.toNat := by
  simp only [ParserEngine.value, List.length_take]
  exact Nat.min_le_left _ _

theorem take_succ_set {α : Type} {xs : List α} {n : Nat} {b : α} (h : n < xs.length) :
    (xs.set n b).take (n + 1) = xs.take n ++ [b] := by
  rw [List.take_succ_eq_append_getElem (by simpa using h), List.take_set_of_le (Nat.le_refl n)]
  simp

/-- Appending a byte where the array has room appends it to the label. -/
theorem appendLabel_label {p : ParserEngine} {b : Byte7} (h : p.lablen.toNat < p.lab.length) (h7 : p.lablen.toNat < 7) :
    (p.appendLabel b).label = p.label ++ [b] := by
  have hl : (p.lablen + 1#3).toNat = p.lablen.toNat + 1 := by
    simp only [BitVec.toNat_add, BitVec.toNat_ofNat]; omega
  simp only [ParserEngine.label, ParserEngine.appendLabel, hl]
  exact take_succ_set h

/-- Appending a byte where the array has room appends it to the value. -/
theorem appendValue_value {p : ParserEngine} {b : Byte7} (h : p.vallen.toNat < p.val.length) (h15 : p.vallen.toNat < 15) :
    (p.appendValue b).value = p.value ++ [b] := by
  have hl : (p.vallen + 1#4).toNat = p.vallen.toNat + 1 := by
    simp only [BitVec.toNat_add, BitVec.toNat_ofNat]; omega
  simp only [ParserEngine.value, ParserEngine.appendValue, hl]
  exact take_succ_set h

end Sys2Proof.Machine
end

