-- ==== Sys2Proof/Laws/Meanings.lean ====
section
/-! SUPPORT. For each event, once: everything its meaning can do when it answers a next state. -/

namespace Sys2Proof.Machine

/-- The next state on the left of its equation: the spelling of every lemma below. -/
theorem next_eq_next {a t : State} : ((.next a : Result) = .next t) ↔ t = a := by
  rw [Host.Outcome.next.injEq]; exact eq_comm

theorem execBegin_next {baud : Baud} {pin : Pin} {s t : State} : execBegin baud pin s = .next t ↔ s.fault = none ∧
    ((s.tx.begun = true ∧ t = { s with fault := some .timerBinding }) ∨
     (s.tx.begun = false ∧ baud ≠ 0#22 ∧ bitPeriod s.params baud ≠ 0 ∧
       t = { s with tx := s.tx.configure s.params baud pin, txResult := .ok })) := by
  rw [execBegin, unlessHalted_eq_next]
  refine and_congr_right fun hf => ?_
  by_cases hb : s.tx.begun = true
  case neg =>
    by_cases h0 : baud = 0#22
    · simp [hb, h0]
    · by_cases h1 : bitPeriod s.params baud = 0 <;> simp [hb, h0, h1, next_eq_next, -Host.Outcome.next.injEq]
  case pos => simp [hb, raiseFatal_of_running hf, next_eq_next, -Host.Outcome.next.injEq]

theorem execEnq_next {byte : Byte} {g : Bool} {s t : State} : execEnq byte g s = .next t ↔ s.fault = none ∧ s.tx.begun = true ∧
    ((s.params.qcap ≤ s.tx.q.length ∧ t = { s.log .full with txResult := .full }) ∨
     (s.tx.q.length < s.params.qcap ∧
      ((s.tx.busy = true ∧ t = { s with tx := s.tx.append byte, txResult := .ok }) ∨
       (s.tx.busy = false ∧ enqFromIdle (s.tx.append byte) g s = .next t)))) := by
  rw [execEnq, whenBegun_eq_next]
  refine and_congr_right fun _ => and_congr_right fun _ => ?_
  by_cases hq : s.params.qcap ≤ s.tx.q.length
  · have hq' : ¬ s.tx.q.length < s.params.qcap := by omega
    rw [push_eq_none.2 hq]
    simp only [hq, hq', true_and, false_and, or_false, next_eq_next]
  · have hq' : s.tx.q.length < s.params.qcap := by omega
    rw [push_of_room hq']
    by_cases hb : s.tx.busy = true <;> simp [hb, hq, hq', next_eq_next, -Host.Outcome.next.injEq]

/-- The start of a transmission from idle: in SIMPLE the byte starts, in COOP the request is accepted or denied. -/
theorem enqFromIdle_next {u : TxEngine} {g : Bool} {s t : State} : enqFromIdle u g s = .next t ↔
    (s.params.variant = .simple ∧ t = { s with tx := u.startSimple, txResult := .ok }) ∨
    (s.params.variant = .coop ∧ g = true ∧
      t = { s.emit (.request u.slotUs) with tx := { u with busy := true, gs := .requested }, txResult := .ok }) ∨
    (s.params.variant = .coop ∧ g = false ∧
      t = { (s.emit (.request u.slotUs)).log .denied with tx := u, txResult := .denied }) := by
  unfold enqFromIdle State.isSimple
  by_cases hv : s.params.variant = .simple
  · simp [hv, next_eq_next, -Host.Outcome.next.injEq]
  · have hc : s.params.variant = .coop := by cases h : s.params.variant <;> simp_all
    cases g <;> simp [hc, next_eq_next, -Host.Outcome.next.injEq]

theorem execFlush_next {s t : State} : execFlush s = .next t ↔ s.fault = none ∧ s.tx.begun = true ∧
    ((s.params.variant = .simple ∧ s.tx.busy = true ∧ t = { s with held := some .flush }) ∨
     ((s.params.variant = .coop ∨ s.tx.busy = false) ∧ t = { s with txResult := .ok })) := by
  rw [execFlush, whenBegun_eq_next]
  refine and_congr_right fun _ => and_congr_right fun _ => ?_
  unfold State.isSimple holdCommand
  by_cases hv : s.params.variant = .simple
  · by_cases hb : s.tx.busy = true <;> simp [hv, hb, next_eq_next, -Host.Outcome.next.injEq]
  · have hc : s.params.variant = .coop := by cases h : s.params.variant <;> simp_all
    by_cases hb : s.tx.busy = true <;> simp [hc, hb, next_eq_next, -Host.Outcome.next.injEq]

theorem execEnd_next {s t : State} : execEnd s = .next t ↔ s.fault = none ∧ s.tx.begun = true ∧
    ((s.params.variant = .simple ∧ s.tx.busy = true ∧ t = { s with held := some .endTx }) ∨
     (s.params.variant = .simple ∧ s.tx.busy = false ∧ t = { s with tx := { s.tx with begun := false }, txResult := .ok }) ∨
     (s.params.variant = .coop ∧ t = { s.noteReleased with tx := s.tx.abandon, txResult := .ok })) := by
  rw [execEnd, whenBegun_eq_next]
  refine and_congr_right fun _ => and_congr_right fun _ => ?_
  unfold State.isSimple holdCommand
  by_cases hv : s.params.variant = .simple
  · by_cases hb : s.tx.busy = true <;> simp [hv, hb, next_eq_next, -Host.Outcome.next.injEq]
  · have hc : s.params.variant = .coop := by cases h : s.params.variant <;> simp_all
    by_cases hb : s.tx.busy = true <;> simp [hc, hb, next_eq_next, -Host.Outcome.next.injEq]

/-- The five cases of an enabled TICK. -/
theorem tickCases_next {s t : State} (hf : s.fault = none) : tickCases s = .next t ↔
    (s.tx.cursor ≤ 7#4 ∧ t = { s.answer .continue_ with tx := s.tx.dataBit }) ∨
    (s.tx.cursor = 8#4 ∧ t = { s.answer .continue_ with tx := s.tx.stopBit }) ∨
    (s.tx.cursor = 9#4 ∧ s.tx.q = [] ∧ t = { s.answer .end_ with tx := s.tx.goIdle (!s.isSimple) }) ∨
    (s.tx.cursor = 9#4 ∧ s.tx.q ≠ [] ∧ t = { s.answer (.extend s.tx.slotUs) with tx := s.tx.startByte }) ∨
    (9#4 < s.tx.cursor ∧ t = { s with fault := some .cursorRange }) := by
  unfold tickCases
  by_cases h7 : s.tx.cursor ≤ 7#4
  · have h8 : s.tx.cursor ≠ 8#4 := by rintro h; rw [h] at h7; exact absurd h7 (by decide)
    have h9 : s.tx.cursor ≠ 9#4 := by rintro h; rw [h] at h7; exact absurd h7 (by decide)
    have h10 : ¬ 9#4 < s.tx.cursor := by bv_omega
    simp [h7, h8, h9, h10, next_eq_next, -Host.Outcome.next.injEq]
  · by_cases h8 : s.tx.cursor = 8#4
    · simp [h8, next_eq_next, -Host.Outcome.next.injEq]
    · by_cases h9 : s.tx.cursor = 9#4
      · by_cases hq : s.tx.q = [] <;> simp [h9, hq, next_eq_next, -Host.Outcome.next.injEq]
      · have h10 : 9#4 < s.tx.cursor := by bv_omega
        simp [h7, h8, h9, h10, raiseFatal_of_running hf, next_eq_next, -Host.Outcome.next.injEq]

theorem execTick_next {s t : State} : execTick s = .next t ↔ s.fault = none ∧ s.tx.timerRun = true ∧ tickCases s = .next t := by
  rw [execTick, unlessHalted_eq_next]
  refine and_congr_right fun _ => ?_
  cases s.tx.timerRun <;> simp

theorem execPrepare_next {s t : State} : execPrepare s = .next t ↔ s.fault = none ∧ s.params.variant = .coop ∧
    ((s.tx.gs = .requested ∧ s.tx.q = [] ∧ t = { s.emit .end_ with tx := { s.tx with gs := .none, busy := false } }) ∨
     (s.tx.gs = .requested ∧ s.tx.q ≠ [] ∧ t = { s.emit .continue_ with tx := s.tx.openWindow }) ∨
     (s.tx.gs ≠ .requested ∧ t = s.emit .end_)) := by
  rw [execPrepare, unlessHalted_eq_next]
  refine and_congr_right fun _ => ?_
  unfold State.isSimple prepareRequested
  by_cases hv : s.params.variant = .simple
  · simp [hv]
  · have hc : s.params.variant = .coop := by cases h : s.params.variant <;> simp_all
    by_cases hg : s.tx.gs = .requested
    · by_cases hq : s.tx.q = [] <;> simp [hc, hg, hq, next_eq_next, -Host.Outcome.next.injEq]
    · simp [hc, hg, next_eq_next, -Host.Outcome.next.injEq]

theorem running_eq_true_iff (s : State) : s.running = true ↔ s.ps.pstate ≠ .stopped := by
  simp [State.running]

theorem reading_eq_true_iff (s : State) : s.reading = true ↔ s.ps.pstate ≠ .stopped ∧ s.ps.stopReq = false := by
  simp [State.reading, State.running]

theorem execStartread_next {s t : State} : execStartread s = .next t ↔ s.fault = none ∧ s.ps.pstate = .stopped ∧
    t = { s with ps := { s.ps with pstate := .waitStart, stopReq := false }, pResult := .ok } := by
  rw [execStartread, unlessHalted_eq_next]
  refine and_congr_right fun _ => ?_
  by_cases h : s.ps.pstate = .stopped <;> simp [State.running, h, next_eq_next, -Host.Outcome.next.injEq]

theorem execStopread_next {s t : State} : execStopread s = .next t ↔ s.fault = none ∧
    t = { s with ps := { s.ps with stopReq := s.ps.stopReq || s.running }, pResult := .ok } := by
  rw [execStopread, unlessHalted_eq_next]
  exact and_congr_right fun _ => by simp [next_eq_next, -Host.Outcome.next.injEq]

theorem execPstop_next {s t : State} : execPstop s = .next t ↔ s.fault = none ∧ s.ps.stopReq = true ∧ s.ps.pstate ≠ .stopped ∧
    t = { s with ps := { s.ps with pstate := .stopped, stopReq := false } }.note .stopped := by
  rw [execPstop, unlessHalted_eq_next]
  refine and_congr_right fun _ => ?_
  by_cases h : s.ps.pstate = .stopped <;> by_cases hs : s.ps.stopReq = true <;> simp [State.running, h, hs, next_eq_next, -Host.Outcome.next.injEq]

theorem execRegl_next {s t : State} : execRegl s = .next t ↔ s.fault = none ∧
    ((s.ps.listener = true ∧ t = { s with fault := some .doubleListener }) ∨
     (s.ps.listener = false ∧ t = { s with ps := { s.ps with listener := true }, pResult := .ok })) := by
  rw [execRegl, unlessHalted_eq_next]
  refine and_congr_right fun hf => ?_
  by_cases hl : s.ps.listener = true <;> simp [hl, raiseFatal_of_running hf, next_eq_next, -Host.Outcome.next.injEq]

theorem execUnregl_next {s t : State} : execUnregl s = .next t ↔ s.fault = none ∧
    t = { s with ps := { s.ps with listener := false }, pResult := .ok } := by
  rw [execUnregl, unlessHalted_eq_next]
  exact and_congr_right fun _ => by simp [next_eq_next, -Host.Outcome.next.injEq]

theorem execRx_next {byte : Byte} {s t : State} : execRx byte s = .next t ↔ s.fault = none ∧ s.ps.pstate ≠ .stopped ∧
    s.ps.stopReq = false ∧ t = rxByte (mask7 byte) s := by
  rw [execRx, unlessHalted_eq_next]
  refine and_congr_right fun _ => ?_
  by_cases h : s.ps.pstate = .stopped <;> by_cases hs : s.ps.stopReq = true <;> simp [State.reading, State.running, h, hs, next_eq_next, -Host.Outcome.next.injEq]

theorem execTimeout_next {s t : State} : execTimeout s = .next t ↔ s.fault = none ∧ s.ps.pstate ≠ .stopped ∧
    s.ps.stopReq = false ∧ t = s.abort .timeout := by
  rw [execTimeout, unlessHalted_eq_next]
  refine and_congr_right fun _ => ?_
  by_cases h : s.ps.pstate = .stopped <;> by_cases hs : s.ps.stopReq = true <;> simp [State.reading, State.running, h, hs, next_eq_next, -Host.Outcome.next.injEq]

/-- Everything a byte can do to the framing machine: move it, note, abort, begin a group, grow a field, or dispatch a group. -/
theorem rxByte_cases (b7 : Byte7) (s : State) :
    rxByte b7 s = s ∨
    (∃ p, s.ps.pstate ≠ .groups ∧ p ≠ .label ∧ p ≠ .stopped ∧ rxByte b7 s = s.goto p) ∨
    (rxByte b7 s = s.note .alreadyEnded) ∨
    (rxByte b7 s = (s.note .frameComplete).goto .waitStart) ∨
    (∃ e, rxByte b7 s = s.abort e) ∨
    (s.ps.pstate = .groups ∧ rxByte b7 s = { s with ps := { s.ps with lablen := 0#3, vallen := 0#4, pstate := .label } }) ∨
    (s.ps.pstate = .label ∧ b7 ≠ Config.SP ∧ s.ps.lablen.toNat < s.params.labelMax.val ∧
      rxByte b7 s = { s with ps := s.ps.appendLabel b7 }) ∨
    (s.ps.pstate = .value ∧ b7 ≠ Config.SP ∧ s.ps.vallen.toNat < s.params.valueMax.val ∧
      rxByte b7 s = { s with ps := s.ps.appendValue b7 }) ∨
    (s.ps.pstate = .trailer ∧ b7 = Config.CR ∧ rxByte b7 s = (dispatch s.ps.label s.ps.value s).goto .groups) := by
  unfold rxByte
  split
  · exact .inl rfl
  · unfold rxWaitStart; split
    · exact .inr (.inl ⟨.groups, by simp_all, by simp, by simp, rfl⟩)
    · split <;> simp
  · unfold rxGroups; split
    · simp_all
    · split
      · simp
      · exact .inr (.inr (.inr (.inr (.inl ⟨_, rfl⟩))))
  · unfold rxLabel; split
    · exact .inr (.inl ⟨.value, by simp_all, by simp, by simp, rfl⟩)
    · split
      · rename_i h1 h2 h3
        exact .inr (.inr (.inr (.inr (.inr (.inr (.inl ⟨h1, h2, h3, rfl⟩))))))
      · exact .inr (.inr (.inr (.inr (.inl ⟨_, rfl⟩))))
  · unfold rxValue; split
    · exact .inr (.inl ⟨.checksum, by simp_all, by simp, by simp, rfl⟩)
    · split
      · rename_i h1 h2 h3
        exact .inr (.inr (.inr (.inr (.inr (.inr (.inr (.inl ⟨h1, h2, h3, rfl⟩)))))))
      · exact .inr (.inr (.inr (.inr (.inl ⟨_, rfl⟩))))
  · unfold rxChecksum; split
    · exact .inr (.inl ⟨.trailer, by simp_all, by simp, by simp, rfl⟩)
    · exact .inr (.inr (.inr (.inr (.inl ⟨_, rfl⟩))))
  · unfold rxTrailer; split
    · rename_i h1 h2
      exact .inr (.inr (.inr (.inr (.inr (.inr (.inr (.inr ⟨h1, h2, rfl⟩)))))))
    · exact .inr (.inr (.inr (.inr (.inl ⟨_, rfl⟩))))

end Sys2Proof.Machine
end

