-- ==== Sys2Proof/Laws/PerInstr.lean ====
section
/-! SUPPORT. The family OpcodeField: the opcode field of every event's word is the event's opcode, whatever its operands
(30_encoding R80, R85). -/

namespace Sys2Proof.Laws.OpcodeField

/-- Bits 31:27 of the encoded event are its opcode. -/
def Statement (i : Instr) : Prop := opField (encode i) = i.opcode

theorem beginTx (baud : Baud) (pin : Pin) : Statement (.beginTx baud pin) := by
  have := pin.isLt
  have := baud.isLt
  apply opField_encode_of_lt
  rw [Instr.operandBits, BitVec.toNat_add, field_toNat _ (by omega), BitVec.toNat_setWidth]
  omega

theorem enq (byte : Byte) (g : Bool) : Statement (.enq byte g) := by
  have := byte.isLt
  have := g.toNat_lt
  apply opField_encode_of_lt
  rw [Instr.operandBits, BitVec.toNat_add, field_toNat _ (by omega), BitVec.toNat_setWidth, BitVec.toNat_ofBool]
  omega

theorem flush : Statement .flush := opField_encode_of_lt (by decide)
theorem endTx : Statement .endTx := opField_encode_of_lt (by decide)
theorem tick : Statement .tick := opField_encode_of_lt (by decide)
theorem prepare : Statement .prepare := opField_encode_of_lt (by decide)
theorem startread : Statement .startread := opField_encode_of_lt (by decide)
theorem stopread : Statement .stopread := opField_encode_of_lt (by decide)
theorem regl : Statement .regl := opField_encode_of_lt (by decide)
theorem unregl : Statement .unregl := opField_encode_of_lt (by decide)

theorem rx (byte : Byte) : Statement (.rx byte) := by
  have := byte.isLt
  apply opField_encode_of_lt
  rw [Instr.operandBits, BitVec.toNat_setWidth]
  omega

theorem timeout : Statement .timeout := opField_encode_of_lt (by decide)
theorem pstop : Statement .pstop := opField_encode_of_lt (by decide)

end Sys2Proof.Laws.OpcodeField
end

