-- ==== Sys2Proof/Laws/Step.lean ====
section
/-! SUPPORT. What a step and its fetch can do, and the package of an invariant that every event and every fetch keeps. -/

namespace Sys2Proof.Machine

/-- A word taken off the port is one of its words, every word passed over is the foreground's, and the rest keep their order. -/
theorem takeWord_eq_some {waiting : Bool} {ws rest : List Word} {w : Word} (h : takeWord waiting ws = some (w, rest)) :
    ∃ pre post, ws = pre ++ w :: post ∧ rest = pre ++ post ∧ (waiting = true → foregroundWord w = false) ∧
      (∀ x ∈ pre, waiting = true ∧ foregroundWord x = true) := by
  induction ws generalizing rest with
  | nil => simp [takeWord] at h
  | cons x xs ih =>
    unfold takeWord at h
    split at h
    · rename_i hx
      simp only [Bool.and_eq_true] at hx
      split at h
      · simp at h
      · rename_i y r hy
        simp only [Option.some.injEq, Prod.mk.injEq] at h
        obtain ⟨rfl, rfl⟩ := h
        obtain ⟨pre, post, hxs, hr, hw, hp⟩ := ih hy
        refine ⟨x :: pre, post, by simp [hxs], by simp [hr], hw, ?_⟩
        intro z hz
        rcases List.mem_cons.1 hz with rfl | hz
        · exact hx
        · exact hp z hz
    · rename_i hx
      simp only [Option.some.injEq, Prod.mk.injEq] at h
      obtain ⟨rfl, rfl⟩ := h
      refine ⟨[], xs, by simp, by simp, ?_, by simp⟩
      intro hw
      simpa [hw] using hx

/-- A word of the foreground is one that decodes to an event only the foreground issues. -/
theorem foregroundWord_eq_true_iff (w : Word) : foregroundWord w = true ↔ IsForegroundWord w := by
  unfold foregroundWord IsForegroundWord
  cases h : decode w with
  | error e => simp
  | ok i => cases i <;> simp [foregroundOnly]

/-- While the foreground waits, the words of the foreground are passed over and stay. -/
theorem takeWord_append_of_foreground {before rest : List Word} {w : Word} (hb : ∀ x ∈ before, foregroundWord x = true)
    (hw : foregroundWord w = false) : takeWord true (before ++ w :: rest) = some (w, before ++ rest) := by
  induction before with
  | nil => simp [takeWord, hw]
  | cons x xs ih =>
    have hx := hb x (List.mem_cons_self ..)
    simp [takeWord, hx, ih fun y hy => hb y (List.mem_cons_of_mem _ hy)]

/-- While the foreground waits, nothing is taken from a port of its words alone. -/
theorem takeWord_of_foreground {ws : List Word} (h : ∀ x ∈ ws, foregroundWord x = true) : takeWord true ws = none := by
  induction ws with
  | nil => rfl
  | cons x xs ih =>
    have hx := h x (List.mem_cons_self ..)
    simp [takeWord, hx, ih fun y hy => h y (List.mem_cons_of_mem _ hy)]

theorem takeWord_false (w : Word) (ws : List Word) : takeWord false (w :: ws) = some (w, ws) := by
  simp [takeWord]

/-- The state an event is taken in differs from the state before only on the port and in the waiting command. -/
theorem fetch_eq_event {s s' : State} {i : Instr} (h : fetch s = .event i s') :
    ∃ hd pt, s' = { s with held := hd, port := pt } ∧
      ((∃ c, s.held = some c ∧ s.tx.busy = false ∧ i = c.instr ∧ hd = none) ∨
       (hd = s.held ∧ (s.held.isSome = true → s.tx.busy = true ∧ foregroundOnly i = false))) := by
  have port : ∀ s' : State, fetchPort s = .event i s' → ∃ pt, s' = { s with port := pt } ∧
      (s.held.isSome = true → foregroundOnly i = false) := by
    intro s' h
    unfold fetchPort at h
    split at h
    · split at h
      · simp only [Fetch.event.injEq] at h
        obtain ⟨rfl, rfl⟩ := h
        exact ⟨s.port, rfl, fun _ => rfl⟩
      · simp at h
    · rename_i w rest hw
      split at h
      · rename_i j hj
        simp only [Fetch.event.injEq] at h
        obtain ⟨rfl, rfl⟩ := h
        refine ⟨rest, rfl, fun hh => ?_⟩
        obtain ⟨_, _, _, _, hfw, _⟩ := takeWord_eq_some hw
        have hfw := hfw hh
        unfold foregroundWord at hfw
        unfold decodeFor at hj
        split at hj
        · simp at hj
        · rename_i k hk
          split at hj
          · simp only [Except.ok.injEq] at hj
            subst hj
            simpa [hk] using hfw
          · simp at hj
      · simp at h
  unfold fetch at h
  split at h
  · rename_i c hc
    split at h
    · rename_i hb
      obtain ⟨pt, rfl, hp⟩ := port s' h
      exact ⟨s.held, pt, rfl, .inr ⟨rfl, fun hh => ⟨hb, hp hh⟩⟩⟩
    · rename_i hb
      simp only [Fetch.event.injEq] at h
      obtain ⟨rfl, rfl⟩ := h
      exact ⟨none, s.port, rfl, .inl ⟨c, hc, by simpa using hb, rfl, rfl⟩⟩
  · rename_i hc
    obtain ⟨pt, rfl, hp⟩ := port s' h
    exact ⟨s.held, pt, rfl, .inr ⟨rfl, fun hh => by simp [hc] at hh⟩⟩

/-- A step that answers a next state waited, or ran the event it fetched. -/
theorem step_next {s t : State} (h : step s = .next t) :
    (fetch s = .idle ∧ t = s) ∨ ∃ i s', fetch s = .event i s' ∧ exec i s' = .next t := by
  unfold step at h
  split at h
  · rename_i hf
    simp only [Host.Outcome.next.injEq] at h
    exact .inl ⟨hf, h.symm⟩
  · simp at h
  · rename_i i s' hf
    exact .inr ⟨i, s', hf, h⟩

/-- What every event keeps and the fetch does not touch, every step keeps. -/
theorem step_keeps {P : State → Prop} (onFetch : ∀ (s : State) (hd : Option HeldCommand) (pt : List Word), P s →
      P { s with held := hd, port := pt })
    (onEvent : ∀ (i : Instr) (s t : State), P s → exec i s = .next t → P t) {s t : State} (hs : P s) (h : step s = .next t) : P t := by
  rcases step_next h with ⟨_, rfl⟩ | ⟨i, s', hf, he⟩
  · exact hs
  · obtain ⟨hd, pt, rfl, _⟩ := fetch_eq_event hf
    exact onEvent i _ t (onFetch s hd pt hs) he

end Sys2Proof.Machine
end

