-- ==== Sys2Proof/Tests/Slice0.lean ====
section
/-! SUPPORT. The model's own tests, expected values from 95_test_vectors (the vector is named in each comment), the WellFormed smoke
tests, and for every obligation with hypotheses a witness that meets them. -/

namespace Sys2Proof.Tests

open Sys2Proof.Machine

/-! ### Small states -/

/-- A block built as `v`, right after reset. -/
def built (v : Variant) : State := State.resetOf { Params.default with variant := v }

/-- The state after `BEGIN 1200, 9` (V-BEG-1), begun and idle. -/
def begun (v : Variant) : State :=
  { built v with tx := { TxEngine.reset with begun := true, oe := true, pin := 9#5, baud := 1200#22, period := 833#32, slotUs := 8434#32 } }

/-- A byte `cur` in flight at `cursor`, `q` behind it. -/
def sending (v : Variant) (cur : Byte) (cursor : BitVec 4) (line : Bool) (q : List Byte) : State :=
  { begun v with tx := { (begun v).tx with
      busy := true, timerRun := true, cur := cur, cursor := cursor, line := line, q := q,
      gs := if v = .coop then .active else .none } }

/-- A window requested and not yet begun, `q` waiting. -/
def requested (q : List Byte) : State :=
  { begun .coop with tx := { (begun .coop).tx with busy := true, gs := .requested, q := q } }

/-- The parser in `p`, with a listener. -/
def parsing (p : PState) : State :=
  { built .coop with ps := { (built .coop).ps with pstate := p, listener := true } }

/-- The parser in `p` with `b` appended to its label. -/
def withLabel (bs : List Byte7) (s : State) : State := { s with ps := bs.foldl (fun p b => p.appendLabel b) s.ps }

/-- The parser with `bs` appended to its value. -/
def withValue (bs : List Byte7) (s : State) : State := { s with ps := bs.foldl (fun p b => p.appendValue b) s.ps }

/-- The next state of an answer. -/
def after (r : Result) : Option State :=
  match r with
  | .next t => some t
  | .fault _ => none
  | .refused _ => none

/-- The refusal of an answer. -/
def refusal (r : Result) : Option Refusal :=
  match r with
  | .next _ => none
  | .fault _ => none
  | .refused x => some x

/-- The fault of an answer. -/
def faultOf (r : Result) : Option Fault :=
  match r with
  | .next _ => none
  | .fault x => some x
  | .refused _ => none

/-- The bytes of an ASCII string. -/
def str (cs : List Char) : List Byte := cs.map fun c => BitVec.ofNat 8 c.toNat

/-! ### Decoding: words written out from R80 to R85 (V-ENC-1 to V-ENC-28) -/

theorem test_decode_begin : decode 0b00001_01001_0000000000010010110000#32 = .ok (.beginTx 1200#22 9#5) := by rfl
theorem test_decode_begin_largest : decode 0x0FFFFFFF#32 = .ok (.beginTx 4194303#22 31#5) := by rfl
theorem test_decode_enq_deny : decode 0b00010_000000000000000000_0_01000001#32 = .ok (.enq 0x41#8 false) := by rfl
theorem test_decode_enq_accept : decode 0b00010_000000000000000000_1_11111111#32 = .ok (.enq 0xFF#8 true) := by rfl
theorem test_decode_flush : decode 0b00011_000000000000000000000000000#32 = .ok .flush := by rfl
theorem test_decode_end : decode 0b00100_000000000000000000000000000#32 = .ok .endTx := by rfl
theorem test_decode_tick : decode 0b01000_000000000000000000000000000#32 = .ok .tick := by rfl
theorem test_decode_prepare : decode 0b01001_000000000000000000000000000#32 = .ok .prepare := by rfl
theorem test_decode_startread : decode 0b10000_000000000000000000000000000#32 = .ok .startread := by rfl
theorem test_decode_stopread : decode 0b10001_000000000000000000000000000#32 = .ok .stopread := by rfl
theorem test_decode_regl : decode 0b10010_000000000000000000000000000#32 = .ok .regl := by rfl
theorem test_decode_unregl : decode 0b10011_000000000000000000000000000#32 = .ok .unregl := by rfl
theorem test_decode_rx : decode 0b11000_0000000000000000000_10001101#32 = .ok (.rx 0x8D#8) := by rfl
theorem test_decode_timeout : decode 0b11001_000000000000000000000000000#32 = .ok .timeout := by rfl
theorem test_decode_pstop : decode 0b11010_000000000000000000000000000#32 = .ok .pstop := by rfl

theorem test_illegal_opcode_00 : decode 0x00000000#32 = .error .unassignedOpcode := by rfl
theorem test_illegal_opcode_05 : decode 0x28000000#32 = .error .unassignedOpcode := by rfl
theorem test_illegal_opcode_1F : decode 0xF8000000#32 = .error .unassignedOpcode := by rfl
theorem test_illegal_flush_bit_0 : decode 0x18000001#32 = .error .reservedBits := by rfl
theorem test_illegal_enq_bit_9 : decode 0x10000241#32 = .error .reservedBits := by rfl
theorem test_illegal_rx_bit_8 : decode 0xC0000102#32 = .error .reservedBits := by rfl
theorem test_illegal_tick_bit_0 : decode 0x40000001#32 = .error .reservedBits := by rfl
theorem test_illegal_prepare_in_simple : decodeFor .simple 0x48000000#32 = .error .notInVariant := by rfl

theorem test_encode_begin_9600 : encode (.beginTx 9600#22 31#5) = 0x0FC02580#32 := by decide
theorem test_bytes_of_word : bytesOfWord (encode (.beginTx 115200#22 0#5)) = [0x08#8, 0x01#8, 0xC2#8, 0x00#8] := by decide
theorem test_decode_bytes : decodeBytes [0x10#8, 0x00#8, 0x01#8, 0x41#8, 0xAA#8] = .ok (.enq 0x41#8 true, [0xAA#8]) := by rfl
theorem test_decode_bytes_truncated : decodeBytes [0x10#8, 0x00#8, 0x01#8] = .error .truncated := by rfl
theorem test_decode_table_word : decodeTableWord 32 0x0A4004B0 = some (.beginTx 1200#22 9#5) := by decide
theorem test_decode_table_word_illegal : decodeTableWord 32 0x10000241 = none := by decide

/-- The opcode table's masks and patterns of R85: every row's pattern decodes to an event, and no pattern meets another row's mask. -/
theorem test_opcode_rows_disjoint :
    opcodeTable.Pairwise fun a b => a.pattern &&& (a.mask &&& b.mask) ≠ b.pattern &&& (a.mask &&& b.mask) := by decide

/-! ### WellFormed refuses an ill-formed term for each of its checks -/

theorem test_illformed_prepare_in_simple : Instr.wellFormed .simple .prepare = false := by decide
theorem test_wellformed_prepare_in_coop : Instr.wellFormed .coop .prepare = true := by decide
theorem test_illformed_empty_label : RegistryRow.wellFormed Config.LABEL_MAX ⟨[], .text⟩ = false := by decide
theorem test_illformed_long_label : RegistryRow.wellFormed Config.LABEL_MAX ⟨Config.ascii ['A', 'B', 'C', 'D', 'E', 'F', 'G', 'H'], .text⟩ = false := by
  decide
theorem test_illformed_label_with_space : RegistryRow.wellFormed Config.LABEL_MAX ⟨Config.ascii ['A', ' ', 'B'], .text⟩ = false := by decide
theorem test_illformed_repeated_label :
    distinctLabels [⟨Config.ascii ['A'], .text⟩, ⟨Config.ascii ['B'], .uint⟩, ⟨Config.ascii ['A'], .uint⟩] = false := by decide
theorem test_illformed_timer_zero : Params.wellFormed { Params.default with timerHz := 0#32 } = false := by decide
theorem test_illformed_bad_registry : Params.wellFormed { Params.default with registry := [⟨[], .text⟩] } = false := by decide
theorem test_wellformed_default : Params.default.wellFormed = true := by decide

/-! ### One step of each event -/

/-- V-BEG-1. -/
theorem test_begin_1200 : (after (exec (.beginTx 1200#22 9#5) (built .simple))).map (fun t => (t.tx, t.txResult)) =
    some ((begun .simple).tx, .ok) := by decide

/-- V-BEG-3: 16 MHz, no margin. -/
theorem test_begin_rounding : (after (exec (.beginTx 115200#22 0#5)
      (State.resetOf { Params.default with timerHz := 16000000#32, tsMarginUs := 0 }))).map
    (fun t => (t.tx.period, t.tx.slotUs)) = some (138#32, 87#32) := by decide

/-- V-ENQ-1. -/
theorem test_enq_simple : (after (exec (.enq 0x41#8 false) (begun .simple))).map
    (fun t => ((t.tx.cur, t.tx.cursor, t.tx.line, t.tx.wire), (t.tx.timerRun, t.tx.busy, t.tx.q))) =
    some ((0x41#8, 0#4, false, [false]), (true, true, [])) := by decide

/-- V-ENQ-3. -/
theorem test_enq_denied : (after (exec (.enq 0x55#8 false) (begun .coop))).map
    (fun t => ((t.tx.q, t.tx.busy, t.tx.gs), (t.schedLog, t.errLog, t.txResult))) =
    some (([0x55#8], false, .none), ([.request 8434#32], [.denied], .denied)) := by decide

/-- V-FLU-2. -/
theorem test_flush_held : (after (exec .flush (sending .simple 0x41#8 0#4 false []))).map (fun t => (t.held, t.tx.busy)) =
    some (some .flush, true) := by decide

/-- V-FLU-3. -/
theorem test_flush_coop : (after (exec .flush (sending .coop 0x41#8 3#4 false [0xAA#8]))).map (fun t => (t.held, t.tx.q, t.txResult)) =
    some (none, [0xAA#8], .ok) := by decide

/-- V-END-1. -/
theorem test_end_simple : (after (exec .endTx (begun .simple))).map (fun t => (t.tx.begun, t.tx.oe, t.tx.line, t.tx.baud)) =
    some (false, true, true, 1200#22) := by decide

/-- V-END-3. -/
theorem test_end_coop : (after (exec .endTx (sending .coop 0x41#8 3#4 false [0x42#8, 0x43#8]))).map
    (fun t => ((t.statusLog, t.tx.q, t.tx.busy, t.tx.cursor), (t.tx.timerRun, t.tx.gs, t.tx.line, t.tx.begun))) =
    some (([.released], [], false, 0#4), (false, .none, true, false)) := by decide

/-- The seventh TICK of 95's table for 0x41: cursor 6 drives a 1. -/
theorem test_tick_data : (after (exec .tick (sending .simple 0x41#8 6#4 false []))).map
    (fun t => (t.tx.line, t.tx.cursor, t.tx.wire)) = some (true, 7#4, [true]) := by decide

/-- V-TICK-2. -/
theorem test_tick_extend : (after (exec .tick (sending .coop 0x41#8 9#4 true [0x42#8]))).map
    (fun t => ((t.tx.cur, t.tx.q, t.tx.cursor), (t.tx.line, t.schedLog, t.tx.gs))) =
    some ((0x42#8, [], 0#4), (false, [.extend 8434#32], .active)) := by decide

/-- V-PRE-1. -/
theorem test_prepare_opens : (after (exec .prepare (requested [0x55#8, 0xAA#8]))).map
    (fun t => ((t.schedLog, t.tx.gs, t.tx.cur), (t.tx.q, t.tx.line, t.tx.timerRun))) =
    some (([.continue_], .active, 0x55#8), ([0xAA#8], false, true)) := by decide

/-- V-PRE-5. -/
theorem test_prepare_simple : refusal (exec .prepare (begun .simple)) = some (.illegalWord .notInVariant) := by decide

/-- V-PAR-2. -/
theorem test_startread : (after (exec .startread (built .coop))).map (fun t => (t.ps.pstate, t.pResult)) = some (.waitStart, .ok) := by
  decide

/-- V-PAR-3. -/
theorem test_startread_refused : refusal (exec .startread (parsing .waitStart)) = some .alreadyReading := by decide

/-- V-PAR-24. -/
theorem test_stopread_stopped : (after (exec .stopread (built .coop))).map (fun t => t.ps.stopReq) = some false := by decide

/-- R162. -/
theorem test_stopread_running : (after (exec .stopread (parsing .value))).map (fun t => t.ps.stopReq) = some true := by decide

/-- V-REG-1. -/
theorem test_regl : (after (exec .regl (built .simple))).map (fun t => t.ps.listener) = some true := by decide

/-- V-REG-2. -/
theorem test_regl_fatal : (after (exec .regl (parsing .groups))).map State.faultCode = some 0xF1#8 := by decide

/-- V-REG-3. -/
theorem test_unregl : (after (exec .unregl (parsing .groups))).map (fun t => t.ps.listener) = some false := by decide

/-- V-PAR-9: the eighth label byte. -/
theorem test_rx_label_too_long : (after (exec (.rx 0x48#8)
      (withLabel (Config.ascii ['A', 'B', 'C', 'D', 'E', 'F', 'G']) (parsing .label)))).map
    (fun t => (t.ps.pstate, t.errLog, t.ps.label, t.ps.lablen)) =
    some (.waitStart, [.labelTooLong], Config.ascii ['A', 'B', 'C', 'D', 'E', 'F', 'G'], 7#3) := by decide

/-- V-REG-13 and V-CK-D5: the CR with bit 7 set dispatches; a first value of 0 notifies. -/
theorem test_rx_dispatch : (after (exec (.rx 0x8D#8)
      (withValue (Config.ascii ['B', 'A', 'S', 'E'])
        (withLabel (Config.ascii ['O', 'P', 'T', 'A', 'R', 'I', 'F']) (parsing .trailer))))).map
    (fun t => (t.ps.pstate, t.notifyLog, t.ps.store[1]?)) =
    some (.groups, [⟨1, .optarif, .optarif .BASE⟩], some ⟨true, .optarif .BASE⟩) := by decide

/-- V-PAR-16. -/
theorem test_timeout : (after (exec .timeout (withValue (Config.ascii ['0', '3']) (parsing .value)))).map
    (fun t => (t.ps.pstate, t.statusLog, t.errLog, t.ps.value)) =
    some (.waitStart, [.timeout], [.timeout], Config.ascii ['0', '3']) := by decide

/-- V-PAR-1. -/
theorem test_rx_stopped : faultOf (exec (.rx 0x02#8) (built .coop)) = some .rxNotReading := by decide

/-- R164. -/
theorem test_pstop : (after (exec .pstop { parsing .value with ps := { (parsing .value).ps with stopReq := true } })).map
    (fun t => (t.ps.pstate, t.ps.stopReq, t.statusLog)) = some (.stopped, false, [.stopped]) := by decide

/-- V-PAR-25. -/
theorem test_pstop_not_enabled : faultOf (exec .pstop (parsing .groups)) = some .pstopNotEnabled := by decide

/-- The word `ENQ 'B'` placed as the next fetch is what the step runs. -/
theorem test_step_with_fetch_word : (after (step ((sending .simple 0x41#8 0#4 false []).withFetchWord 32 0x10000042))).map
    (fun t => (t.tx.q, t.port)) = some ([0x42#8], []) := by decide

/-- While FLUSH is held, a presented END waits and a presented TICK is taken (V-FLU-2). -/
theorem test_step_skips_waiting_foreground :
    (after (step { sending .simple 0x41#8 0#4 false [] with
      held := some .flush, port := [0x20000000#32, 0x40000000#32] })).map (fun t => (t.tx.cursor, t.held, t.port)) =
    some (1#4, some .flush, [0x20000000#32]) := by decide

/-- P1's wire, ten TICKs for one byte (V-WAV-5). -/
theorem test_wave_41 : byteLevels 0x41#8 = [false, true, false, false, false, false, false, true, false, true] := by decide

/-- R8: QCAP and LABEL_MAX are parameters. With LABEL_MAX = 4 the fifth label byte is one too many (R168), and with QCAP = 1 the second
queued byte finds the queue full (R62). -/
theorem test_bounds_are_parameters :
    (after (exec (.rx 0x45#8) (withLabel (Config.ascii ['A', 'B', 'C', 'D'])
      { parsing .label with params := { Params.default with labelMax := 4 } }))).map (fun t => (t.ps.pstate, t.errLog)) =
      some (.waitStart, [.labelTooLong]) ∧
    (after (exec (.enq 0x43#8 false) { sending .simple 0x41#8 0#4 false [0x42#8] with
      params := { Params.default with qcap := 1, variant := .simple } })).map (fun t => (t.tx.q, t.txResult)) =
      some ([0x42#8], .full) := by decide

/-- 93 G1: EOT is a parameter. Where it is 0x17, that byte ends a frame (R167) and 0x04 is any other byte (R166). -/
theorem test_eot_is_a_parameter :
    (after (exec (.rx 0x97#8) { parsing .groups with params := { Params.default with eot := 0x17#7 } })).map
      (fun t => (t.ps.pstate, t.statusLog)) = some (.waitStart, [.frameComplete]) ∧
    (after (exec (.rx 0x04#8) { parsing .waitStart with params := { Params.default with eot := 0x17#7 } })).map
      (fun t => (t.ps.pstate, t.statusLog)) = some (.waitStart, []) := by decide

/-! ### The checksum, the decoders, the trace syntax -/

/-- V-CK-1. -/
theorem test_checksum_adco : checksum (Config.ascii ['A', 'D', 'C', 'O'])
    (Config.ascii ['0', '3', '1', '6', '2', '1', '2', '3', '4', '5', '6', '7']) = 0x3F#8 := by decide

/-- V-CK-11: the checksum is a space. -/
theorem test_checksum_space : checksum (Config.ascii ['P', 'T', 'E', 'C']) (Config.ascii ['H', 'P', '.', '.']) = 0x20#8 := by decide

/-- V-CK-22: the largest sum. -/
theorem test_checksum_largest : checksum (List.replicate 7 0x7F#7) (List.replicate 15 0x7F#7) = 0x2A#8 := by decide

/-- V-REG-9's value, and the empty one. -/
theorem test_decode_uint_errors : decodeUint (Config.ascii ['0', 'A', '2']) = none ∧ decodeUint [] = none := by decide

/-- V-REG-8. -/
theorem test_decode_uint_largest : decodeUint (Config.ascii (List.replicate 15 '9')) = some 999999999999999#64 := by decide

/-- 95 section 2.9, the decode function alone. -/
theorem test_decode_names : decodeOptarif (Config.ascii ['H', 'C']) = some .HC ∧ decodeOptarif (Config.ascii ['.', '.', '.', '.']) = none ∧
    decodeOptarif (Config.ascii ['h', 'c', '.', '.']) = none ∧ decodePtec (Config.ascii ['P', 'M', '.', '.']) = some .PM ∧
    decodePtec [] = none := by decide

/-- V-REG-11: lower case is a different label. -/
theorem test_lookup_case : findField Config.defaultRegistry (Config.ascii ['a', 'd', 'c', 'o']) = none ∧
    findField Config.defaultRegistry (Config.ascii ['H', 'H', 'P', 'H', 'C']) = some (14, .text) := by decide

theorem test_trace_line : readLine "ENQ 'A', accept  ; comment".toList = some [.enq 0x41#8 true] := by decide
theorem test_trace_string : readLine "RXS \"\\x02\\nA\"".toList = some [.rx 0x02#8, .rx 0x0A#8, .rx 0x41#8] := by decide
/-- R92: a comment or an arrow may abut the mnemonic; a quoted character or string hides both. -/
theorem test_trace_abutting : readLine "TICK; note".toList = some [.tick] ∧ readLine "FLUSH-> OK".toList = some [.flush] ∧
    readLine "ENQ ';', accept".toList = some [.enq 0x3B#8 true] ∧ readLine "; P1".toList = some [] := by decide
theorem test_trace_string_hides : readLine "SEND \"a;->\", accept -> OK".toList =
    some [.enq 0x61#8 true, .enq 0x3B#8 true, .enq 0x2D#8 true, .enq 0x3E#8 true] := by decide
theorem test_trace_show : showEvent (.beginTx 1200#22 9#5) = "BEGIN 1200, 9".toList := by decide

/-! ### Witnesses: concrete states and operands that meet the hypotheses of the obligations -/

theorem witness_EncodeOfDecode : decode 0x10000141#32 = .ok (.enq 0x41#8 true) := by rfl

theorem witness_WrittenOutAndStoredWordsDecode : decode 0xC0000002#32 = .ok (.rx 0x02#8) := by rfl

/-- A waiting FLUSH, with STARTREAD and END of the foreground before an ENQ. -/
def waiting (port : List Word) : State := { sending .simple 0x41#8 0#4 false [] with held := some .flush, port := port }

theorem isForegroundWord_startread : IsForegroundWord 0x80000000#32 := .inr (.inr (.inr rfl))

theorem isForegroundWord_end : IsForegroundWord 0x20000000#32 := .inr (.inr (.inl rfl))

theorem not_isForegroundWord_enq : ¬ IsForegroundWord 0x10000042#32 := by
  rw [← foregroundWord_eq_true_iff]
  decide

theorem witness_StepRunsThePresentedEvent :
    (∃ s : State, s.held = none ∧ s.port = 0x48000000#32 :: [0x40000000#32] ∧ decode 0x48000000#32 = .ok .prepare ∧
      Instr.prepare.wellFormed s.params.variant = true) ∧
    (∃ s : State, s.held = some .flush ∧ s.tx.busy = true ∧
      s.port = [0x80000000#32, 0x20000000#32] ++ 0x10000042#32 :: [0x40000000#32] ∧
      (∀ x ∈ [0x80000000#32, 0x20000000#32], IsForegroundWord x) ∧ ¬ IsForegroundWord 0x10000042#32 ∧
      decode 0x10000042#32 = .ok (.enq 0x42#8 false) ∧ (Instr.enq 0x42#8 false).wellFormed s.params.variant = true) :=
  ⟨⟨{ built .coop with port := [0x48000000#32, 0x40000000#32] }, rfl, rfl, rfl, rfl⟩,
   ⟨waiting [0x80000000#32, 0x20000000#32, 0x10000042#32, 0x40000000#32], rfl, rfl, rfl,
    by simpa using ⟨isForegroundWord_startread, isForegroundWord_end⟩, not_isForegroundWord_enq, rfl, rfl⟩⟩

theorem witness_StepWithNothingPresented :
    (∃ s : State, s.held = none ∧ s.port = [] ∧ s.pstopEnabled = false) ∧
    (∃ s : State, s.held = none ∧ s.port = [] ∧ s.pstopEnabled = true) ∧
    (∃ s : State, s.held ≠ none ∧ s.tx.busy = true ∧ (∀ x ∈ s.port, IsForegroundWord x) ∧ s.port ≠ [] ∧ s.pstopEnabled = false) :=
  ⟨⟨built .coop, rfl, rfl, by decide⟩,
   ⟨{ parsing .value with ps := { (parsing .value).ps with stopReq := true } }, rfl, rfl, by decide⟩,
   ⟨waiting [0x80000000#32], by decide, rfl, by simpa [waiting] using isForegroundWord_startread, by decide, by decide⟩⟩

theorem witness_IllegalWordsAreRefused :
    ((built .coop).held = none ∧ ({ built .coop with port := [0x18000001#32] } : State).port = 0x18000001#32 :: [] ∧
      decode 0x18000001#32 = .error .reservedBits) ∧
    (∃ s : State, s.held = some .flush ∧ s.tx.busy = true ∧ s.port = [0x20000000#32] ++ 0x18000001#32 :: [] ∧
      ∀ x ∈ [0x20000000#32], IsForegroundWord x) ∧
    (({ built .simple with port := [0x48000000#32] } : State).port = 0x48000000#32 :: [] ∧ (built .simple).held = none ∧
      (built .simple).params.variant = .simple) :=
  ⟨⟨rfl, rfl, rfl⟩, ⟨waiting [0x20000000#32, 0x18000001#32], rfl, rfl, rfl, by simpa using isForegroundWord_end⟩, rfl, rfl, rfl⟩

theorem witness_HeldCommandWaitsForIdle :
    (∃ s : State, s.held = some .endTx ∧ s.tx.busy = false) ∧
    (∃ s t : State, s.held = some .flush ∧ s.tx.busy = true ∧ step s = .next t) :=
  ⟨⟨{ begun .simple with held := some .endTx }, rfl, rfl⟩,
   ⟨{ sending .simple 0x41#8 0#4 false [] with held := some .flush, port := [0x40000000#32] }, _, rfl, rfl, rfl⟩⟩

theorem witness_BeginConfiguresOnce :
    ((begun .simple).fault = none ∧ (begun .simple).tx.begun = true) ∧
    ((built .simple).fault = none ∧ (built .simple).tx.begun = false) ∧
    (1000001#22 ≠ 0#22 ∧ (built .simple).params.timerHz.toNat / (1000001#22).toNat = 0) ∧
    (1000000#22 ≠ 0#22 ∧ (built .simple).params.timerHz.toNat / (1000000#22).toNat ≠ 0) := by decide

/-- A queue exactly full, one byte short of full and busy, and idle engines of both variants. -/
theorem witness_EnqQueuesStartsOrRequests :
    (∃ s : State, s.fault = none ∧ s.tx.begun = true ∧ s.tx.q.length = s.params.qcap) ∧
    (∃ s : State, s.fault = none ∧ s.tx.begun = true ∧ s.tx.q.length < s.params.qcap ∧ s.tx.busy = true) ∧
    (∃ s : State, s.fault = none ∧ s.tx.begun = true ∧ s.tx.q.length < s.params.qcap ∧ s.tx.busy = false ∧ s.params.variant = .simple ∧
      s.tx.q ++ [0x41#8] = 0x41#8 :: []) ∧
    (∃ s : State, s.fault = none ∧ s.tx.begun = true ∧ s.tx.q.length < s.params.qcap ∧ s.tx.busy = false ∧ s.params.variant = .coop) :=
  ⟨⟨sending .simple 0x41#8 0#4 false (List.replicate 80 0x42#8), by decide⟩,
   ⟨sending .coop 0x41#8 0#4 false (List.replicate 79 0x42#8), by decide⟩, ⟨begun .simple, by decide⟩,
   ⟨{ begun .coop with tx := { (begun .coop).tx with q := List.replicate 79 0x55#8 } }, by decide⟩⟩

theorem witness_FlushWritesOnlyItsResult : ∀ v : Variant, ∀ busy : Bool, ∃ s : State,
    s.fault = none ∧ s.tx.begun = true ∧ s.params.variant = v ∧ s.tx.busy = busy := by
  intro v busy
  cases busy
  · exact ⟨begun v, rfl, rfl, rfl, rfl⟩
  · exact ⟨sending v 0x41#8 0#4 false [], rfl, rfl, rfl, rfl⟩

theorem witness_EndDrainsOrAbandons : ∃ s : State, s.fault = none ∧ s.tx.begun = true ∧ s.params.variant = .coop ∧
    s.tx.gs = .requested ∧ s.tx.busy = true :=
  ⟨requested [0x55#8], by decide⟩

theorem witness_TxEventsRefusedOutOfUse :
    ({ built .simple with fault := some .doubleListener } : State).fault ≠ none ∧ (encode .tick).getLsbD 31 = false ∧
    (encode (.beginTx 4194303#22 31#5)).getLsbD 31 = false ∧ (built .simple).fault = none ∧ (built .simple).tx.begun = false := by decide

theorem witness_TickDrivesDataBit :
    (∃ s : State, s.fault = none ∧ s.tx.timerRun = true ∧ s.tx.cursor.toNat ≤ 7 ∧ s.tx.cursor = 0#4) ∧
    (∃ s : State, s.fault = none ∧ s.tx.timerRun = true ∧ s.tx.cursor.toNat ≤ 7 ∧ s.tx.cursor = 7#4) :=
  ⟨⟨sending .simple 0x41#8 0#4 false [], by decide⟩, ⟨sending .coop 0x41#8 7#4 false [], by decide⟩⟩

theorem witness_TickDrivesStopBit : ∃ s : State, s.fault = none ∧ s.tx.timerRun = true ∧ s.tx.cursor = 8#4 :=
  ⟨sending .simple 0x41#8 8#4 false [], by decide⟩

theorem witness_TickTakesNextByte : ∃ s : State, s.fault = none ∧ s.tx.timerRun = true ∧ s.tx.cursor = 9#4 ∧ s.tx.q = 0x42#8 :: [] :=
  ⟨sending .simple 0x41#8 9#4 true [0x42#8], by decide⟩

theorem witness_TickGoesIdle : ∃ s : State, s.fault = none ∧ s.tx.timerRun = true ∧ s.tx.cursor = 9#4 ∧ s.tx.q = [] :=
  ⟨sending .coop 0x41#8 9#4 true [], by decide⟩

theorem witness_TickCursorOutOfRangeIsFatal :
    (∃ s : State, s.fault = none ∧ s.tx.timerRun = true ∧ 10 ≤ s.tx.cursor.toNat ∧ s.tx.cursor = 10#4) ∧
    (∃ s : State, s.fault = none ∧ s.tx.timerRun = true ∧ 10 ≤ s.tx.cursor.toNat ∧ s.tx.cursor = 15#4) :=
  ⟨⟨sending .simple 0x41#8 10#4 false [], by decide⟩, ⟨sending .simple 0x41#8 15#4 false [], by decide⟩⟩

theorem witness_EventsNotEnabledHaveNoStep :
    ((built .coop).fault = none ∧ (built .coop).tx.timerRun = false ∧ (built .coop).ps.pstate = .stopped) ∧
    (∃ s : State, s.fault = none ∧ s.ps.pstate ≠ .stopped ∧ s.ps.stopReq = true) ∧
    ((parsing .label).fault = none ∧ (parsing .label).ps.pstate ≠ .stopped ∧ (parsing .label).ps.stopReq = false) :=
  ⟨by decide, ⟨{ parsing .value with ps := { (parsing .value).ps with stopReq := true } }, by decide⟩, by decide⟩

theorem witness_PrepareOpensRequestedWindow :
    (∃ s : State, s.fault = none ∧ s.params.variant = .coop ∧ s.tx.gs = .requested ∧ s.tx.q = 0x55#8 :: []) ∧
    (∃ s : State, s.fault = none ∧ s.params.variant = .coop ∧ s.tx.gs = .requested ∧ s.tx.q = []) ∧
    (∃ s : State, s.fault = none ∧ s.params.variant = .coop ∧ s.tx.gs ≠ .requested ∧ s.tx.begun = false) ∧
    (∃ s : State, s.fault = none ∧ s.params.variant = .coop ∧ s.tx.gs ≠ .requested ∧ s.tx.gs = .active) :=
  ⟨⟨requested [0x55#8], by decide⟩, ⟨requested [], by decide⟩, ⟨built .coop, by decide⟩,
   ⟨sending .coop 0x41#8 3#4 false [], by decide⟩⟩

/-! #### States that meet the invariants -/

theorem txInv_begun (v : Variant) : TxInv (begun v) := by cases v <;> constructor <;> decide

theorem txInv_sending_first (v : Variant) : TxInv (sending v 0x41#8 0#4 false [0x42#8]) := by cases v <;> constructor <;> decide

theorem txInv_sending_last (v : Variant) : TxInv (sending v 0x41#8 9#4 true []) := by cases v <;> constructor <;> decide

theorem txInv_requested : TxInv (requested [0x55#8]) := by constructor <;> decide

theorem parserInv_parsing : ParserInv (parsing .groups) := by
  constructor
  · decide
  · decide
  · decide
  · exact ⟨by show ∀ b ∈ _, _; decide, by show ∀ b ∈ _, _; decide⟩
  · decide

/-- An empty field store fits its registry. -/
theorem storeInv_of_empty {s : State} (h : s.ps.store = s.params.registry.map fun r => { valid := false, value := zeroValue r.kind }) :
    StoreInv s := by
  constructor
  · simp [h]
  · intro n row c hr hc
    rw [h, List.getElem?_map, hr] at hc
    simp only [Option.map_some, Option.some.injEq] at hc
    subst hc
    refine ⟨?_, ?_⟩
    · cases row.kind <;> rfl
    · intro bytes hb
      cases hk : row.kind <;> simp [hk, zeroValue] at hb
      subst hb
      exact Nat.zero_le _

theorem witness_GrantMovesOnlyByTheTable :
    (∃ t, (begun .coop).params.variant = .coop ∧ TxInv (begun .coop) ∧ exec (.enq 0x55#8 true) (begun .coop) = .next t ∧
      t.tx.gs ≠ (begun .coop).tx.gs) ∧
    (∃ t, TxInv (requested [0x55#8]) ∧ exec .prepare (requested [0x55#8]) = .next t ∧ t.tx.gs ≠ (requested [0x55#8]).tx.gs) ∧
    (∃ t, TxInv (sending .coop 0x41#8 9#4 true []) ∧ exec .tick (sending .coop 0x41#8 9#4 true []) = .next t ∧
      t.tx.gs ≠ (sending .coop 0x41#8 9#4 true []).tx.gs) ∧
    (∃ t, TxInv (requested [0x55#8]) ∧ exec .endTx (requested [0x55#8]) = .next t ∧ t.tx.gs ≠ (requested [0x55#8]).tx.gs) :=
  ⟨⟨_, rfl, txInv_begun _, rfl, by decide⟩, ⟨_, txInv_requested, rfl, by decide⟩, ⟨_, txInv_sending_last _, rfl, by decide⟩,
   ⟨_, txInv_requested, rfl, by decide⟩⟩

theorem witness_RequestsOnlyWithoutGrant : ∃ t, TxInv (begun .coop) ∧ exec (.enq 0x55#8 false) (begun .coop) = .next t ∧
    t.schedLog = (begun .coop).schedLog ++ [.request 8434#32] :=
  ⟨_, txInv_begun _, rfl, by decide⟩

theorem witness_NineTicksSendTheByte : ∃ s : State, s.fault = none ∧ s.tx.timerRun = true ∧ s.tx.cursor = 0#4 :=
  ⟨sending .coop 0x41#8 0#4 false [], by decide⟩

theorem witness_TicksSendTheWholeQueue : ∃ s : State, s.fault = none ∧ s.tx.timerRun = true ∧ s.tx.cursor = 0#4 ∧ s.tx.q = [0x42#8] :=
  ⟨sending .simple 0x41#8 0#4 false [0x42#8], by decide⟩

theorem witness_SimpleEngineSendsInOrder : (begun .simple).fault = none ∧ (begun .simple).params.variant = .simple ∧
    TxInv (begun .simple) ∧ (begun .simple).tx.begun = true ∧ (begun .simple).tx.busy = false ∧
    1 ≤ (begun .simple).params.qcap ∧ List.replicate 81 0x41#8 ≠ [] ∧
    (List.replicate 81 0x41#8).length ≤ (begun .simple).params.qcap + 1 :=
  ⟨rfl, rfl, txInv_begun _, rfl, rfl, by decide, by decide, by decide⟩

theorem witness_CoopEngineSendsInOrder : (begun .coop).fault = none ∧ (begun .coop).params.variant = .coop ∧
    TxInv (begun .coop) ∧ (begun .coop).tx.begun = true ∧ (begun .coop).tx.busy = false ∧ (begun .coop).tx.q = [] ∧
    List.replicate 80 0x41#8 ≠ [] ∧ (List.replicate 80 0x41#8).length ≤ (begun .coop).params.qcap :=
  ⟨rfl, rfl, txInv_begun _, rfl, rfl, rfl, by decide, by decide⟩

theorem witness_ReadLoopStartsAndStops :
    ((built .coop).fault = none ∧ (built .coop).ps.pstate = .stopped) ∧
    ((parsing .label).fault = none ∧ (parsing .label).ps.pstate ≠ .stopped) ∧
    (∃ s : State, s.fault = none ∧ s.ps.stopReq = true ∧ s.ps.pstate ≠ .stopped) ∧
    (parsing .groups).ps.stopReq = false :=
  ⟨by decide, by decide, ⟨{ parsing .trailer with ps := { (parsing .trailer).ps with stopReq := true } }, by decide⟩, by decide⟩

theorem witness_RxSeesSevenBits : 0x82#8 &&& 0x7F#8 = 0x02#8 &&& 0x7F#8 := by decide

theorem witness_RxLooksForStartOfFrame : (parsing .waitStart).fault = none ∧ (parsing .waitStart).ps.stopReq = false ∧
    (parsing .waitStart).ps.pstate = .waitStart ∧ (Config.STX).setWidth 8 = 0x82#8 &&& 0x7F#8 ∧
    (Config.ETX).setWidth 8 = 0x03#8 &&& 0x7F#8 ∧ ((parsing .waitStart).params.eot).setWidth 8 = 0x84#8 &&& 0x7F#8 ∧
    Config.ETX ≠ Config.STX ∧ (parsing .waitStart).params.eot ≠ Config.STX ∧
    (0x05#7).setWidth 8 = 0x05#8 &&& 0x7F#8 ∧ (0x05#7) ≠ Config.STX ∧ (0x05#7) ≠ Config.ETX ∧
    (0x05#7) ≠ (parsing .waitStart).params.eot := by decide

theorem witness_RxBeginsGroupOrEndsFrame : (parsing .groups).fault = none ∧ (parsing .groups).ps.stopReq = false ∧
    (parsing .groups).ps.pstate = .groups ∧ (Config.LF).setWidth 8 = 0x8A#8 &&& 0x7F#8 ∧
    (Config.ETX).setWidth 8 = 0x03#8 &&& 0x7F#8 ∧ ((parsing .groups).params.eot).setWidth 8 = 0x84#8 &&& 0x7F#8 ∧
    Config.ETX ≠ Config.LF ∧ (parsing .groups).params.eot ≠ Config.LF ∧
    (Config.STX).setWidth 8 = 0x02#8 &&& 0x7F#8 ∧ Config.STX ≠ Config.LF ∧ Config.STX ≠ Config.ETX ∧
    Config.STX ≠ (parsing .groups).params.eot := by decide

theorem witness_RxAccumulatesLabel :
    (∃ s : State, s.fault = none ∧ s.ps.stopReq = false ∧ s.ps.pstate = .label ∧ s.ps.lablen.toNat < s.params.labelMax.val ∧ s.ps.lablen = 6#3) ∧
    (∃ s : State, s.fault = none ∧ s.ps.stopReq = false ∧ s.ps.pstate = .label ∧ s.params.labelMax.val ≤ s.ps.lablen.toNat) ∧
    ((0x48#7).setWidth 8 = 0x48#8 &&& 0x7F#8 ∧ (0x48#7) ≠ Config.SP ∧ (Config.SP).setWidth 8 = 0xA0#8 &&& 0x7F#8) :=
  ⟨⟨withLabel (List.replicate 6 0x41#7) (parsing .label), by decide⟩, ⟨withLabel (List.replicate 7 0x41#7) (parsing .label), by decide⟩,
   by decide⟩

theorem witness_RxAccumulatesValue :
    (∃ s : State, s.fault = none ∧ s.ps.stopReq = false ∧ s.ps.pstate = .value ∧ s.ps.vallen.toNat < s.params.valueMax.val ∧ s.ps.vallen = 14#4) ∧
    (∃ s : State, s.fault = none ∧ s.ps.stopReq = false ∧ s.ps.pstate = .value ∧ s.params.valueMax.val ≤ s.ps.vallen.toNat) ∧
    ((0x0D#7).setWidth 8 = 0x8D#8 &&& 0x7F#8 ∧ (0x0D#7) ≠ Config.SP ∧ (Config.SP).setWidth 8 = 0x20#8 &&& 0x7F#8) :=
  ⟨⟨withValue (List.replicate 14 0x41#7) (parsing .value), by decide⟩, ⟨withValue (List.replicate 15 0x41#7) (parsing .value), by decide⟩,
   by decide⟩

/-- The empty group's checksum is 0x40 (V-CK-18): it, and another byte. -/
theorem witness_RxValidatesChecksum : (parsing .checksum).fault = none ∧ (parsing .checksum).ps.stopReq = false ∧
    (parsing .checksum).ps.pstate = .checksum ∧
    0xC0#8 &&& 0x7F#8 = checksum ((parsing .checksum).ps.lab.take (parsing .checksum).ps.lablen.toNat)
      ((parsing .checksum).ps.val.take (parsing .checksum).ps.vallen.toNat) ∧
    0x41#8 &&& 0x7F#8 ≠ checksum ((parsing .checksum).ps.lab.take (parsing .checksum).ps.lablen.toNat)
      ((parsing .checksum).ps.val.take (parsing .checksum).ps.vallen.toNat) := by decide

theorem witness_RxDispatchesAtTrailer : (parsing .trailer).fault = none ∧ (parsing .trailer).ps.stopReq = false ∧
    (parsing .trailer).ps.pstate = .trailer ∧ (Config.CR).setWidth 8 = 0x8D#8 &&& 0x7F#8 ∧
    (Config.LF).setWidth 8 = 0x0A#8 &&& 0x7F#8 ∧ Config.LF ≠ Config.CR := by decide

theorem witness_TimeoutAbortsTheFrame : (parsing .waitStart).fault = none ∧ (parsing .waitStart).ps.stopReq = false ∧
    (parsing .waitStart).ps.pstate ≠ .stopped := by decide

/-- V-REG-4's group with bit 7 noise on its LF. -/
theorem witness_WellFormedGroupIsDispatched : (parsing .groups).fault = none ∧ ParserInv (parsing .groups) ∧ (parsing .groups).ps.stopReq = false ∧
    (parsing .groups).ps.pstate = .groups ∧ (Config.ascii ['F', 'O', 'O']).length ≤ (parsing .groups).params.labelMax.val ∧
    (Config.ascii ['1']).length ≤ (parsing .groups).params.valueMax.val ∧
    noSpaces (Config.ascii ['F', 'O', 'O']) ∧ noSpaces (Config.ascii ['1']) ∧
    (0x8A#8 :: str ['F', 'O', 'O', ' ', '1', ' ', 'U', '\r']).map (fun b => b &&& 0x7F#8) =
      groupBytes (Config.ascii ['F', 'O', 'O']) (Config.ascii ['1']) :=
  ⟨by decide, parserInv_parsing, by decide, by decide, by decide, by decide, by show ∀ b ∈ _, _; decide, by show ∀ b ∈ _, _; decide, by decide⟩

theorem witness_ChecksumIsTheMaskedSum : (List.replicate 7 0x7F#7).length ≤ 7 ∧ (List.replicate 15 0x7F#7).length ≤ 15 ∧ 6 ≤ 6 := by decide

theorem witness_ChecksumDetectsChanges : (parsing .checksum).fault = none ∧ (parsing .checksum).ps.stopReq = false ∧
    (parsing .checksum).ps.pstate = .checksum ∧
    0x41#8 &&& 0x7F#8 ≠ checksum (parsing .checksum).ps.label (parsing .checksum).ps.value := by decide

theorem witness_OneListenerAtATime : (built .coop).fault = none ∧ (built .coop).ps.listener = false ∧
    (parsing .groups).fault = none ∧ (parsing .groups).ps.listener = true := by decide

theorem witness_DispatchStoresAndNotifiesChanges :
    findField (built .coop).params.registry (Config.ascii ['F', 'O', 'O']) = none ∧
    (findField (built .coop).params.registry (Config.ascii ['I', 'I', 'N', 'S', 'T']) = some (10, .uint) ∧
      decodeField .uint (Config.ascii ['0', 'A', '2']) = none) ∧
    (decodeField .uint (Config.ascii ['0', '0', '2']) = some (.uint 2#64) ∧ (built .coop).ps.store[10]? = some ⟨false, .uint 0#64⟩) ∧
    (∃ s : State, s.ps.store[10]? = some ⟨true, .uint 2#64⟩ ∧ s.params.registry = (built .coop).params.registry) :=
  ⟨by decide, by decide, by decide, ⟨(built .coop).setField 10 (.uint 2#64), by decide⟩⟩

theorem witness_LookupFindsExactlyTheRow : distinctLabels Config.defaultRegistry = true := by decide

theorem witness_UintDecodesDecimalDigits : (Config.ascii (List.replicate 15 '9')).length ≤ 15 ∧
    decodeUint (Config.ascii (List.replicate 15 '9')) = some 999999999999999#64 ∧ Config.ascii ['0'] ≠ [] := by decide

theorem witness_UintRoundTrip : 999999999999999 < 10 ^ 15 ∧ 999999999999999 ≠ 0 := by decide

theorem witness_NotifiesExactlyTheChanges :
    ∃ s t : State, StoreInv s ∧ exec (.rx 0x8D#8) s = .next t ∧ t.ps.store ≠ s.ps.store ∧ s.ps.listener = true :=
  ⟨withValue (Config.ascii ['2']) (withLabel (Config.ascii ['I', 'I', 'N', 'S', 'T']) (parsing .trailer)), _,
   storeInv_of_empty rfl, rfl, by decide, by decide⟩

theorem witness_FatalFaultHaltsTheBlock :
    (built .coop).fault = none ∧ ∃ s t : State, s.fault ≠ none ∧ step s = .next t :=
  ⟨rfl, ⟨{ built .coop with fault := some .cursorRange }, _, by decide, rfl⟩⟩

theorem witness_FatalFaultHasThreeCauses :
    (∃ s t : State, exec .tick s = .next t ∧ t.fault ≠ s.fault) ∧ (∃ s t : State, exec .regl s = .next t ∧ t.fault ≠ s.fault) ∧
    (∃ s t : State, exec (.beginTx 9600#22 3#5) s = .next t ∧ t.fault ≠ s.fault) :=
  ⟨⟨sending .simple 0x41#8 10#4 false [], _, rfl, by decide⟩, ⟨parsing .groups, _, rfl, by decide⟩, ⟨begun .simple, _, rfl, by decide⟩⟩

theorem witness_HistoriesOnlyGrow : ∃ s t : State, step s = .next t ∧ t.tx.wire ≠ s.tx.wire :=
  ⟨{ sending .coop 0x41#8 0#4 false [] with port := [0x40000000#32] }, _, rfl, by decide⟩

theorem witness_EachRegisterHasItsWriters :
    ∃ s t : State, exec (.rx 0x41#8) s = .next t ∧ t.ps.lab ≠ s.ps.lab ∧ ∀ baud pin, Instr.rx 0x41#8 ≠ .beginTx baud pin :=
  ⟨parsing .label, _, rfl, by decide, fun _ _ => nofun⟩

theorem witness_EngineBitBoundsTheEffect :
    (∃ s t : State, exec .tick s = .next t ∧ (encode .tick).getLsbD 31 = false) ∧
    (∃ s t : State, exec (.rx 0xFF#8) s = .next t ∧ (encode (.rx 0xFF#8)).getLsbD 31 = true) :=
  ⟨⟨sending .simple 0x41#8 0#4 false [], _, rfl, by decide⟩, ⟨parsing .groups, _, rfl, by decide⟩⟩

theorem witness_EnginesDoNotInterfere : (encode (.enq 0xFF#8 true)).getLsbD 31 = false ∧ (encode .pstop).getLsbD 31 = true := by decide

theorem witness_StepKeepsTxInvariants : ∃ s t : State, TxInv s ∧ step s = .next t ∧ t.tx ≠ s.tx :=
  ⟨{ begun .simple with port := [0x10000041#32] }, _, by constructor <;> decide, rfl, by decide⟩

theorem witness_EventsKeepWireInvariant : ∃ s t : State, TxInv s ∧ WireInv s ∧ exec (.enq 0x41#8 false) s = .next t ∧
    ¬((Instr.enq 0x41#8 false) = .endTx ∧ s.params.variant = .coop ∧ s.tx.timerRun = true) ∧ t.tx.wire ≠ s.tx.wire :=
  ⟨begun .simple, _, txInv_begun _, ⟨by decide, by decide⟩, rfl, by decide, by decide⟩

theorem witness_StepKeepsParserInvariants : ∃ s t : State, ParserInv s ∧ step s = .next t ∧ t.ps ≠ s.ps :=
  ⟨{ parsing .groups with port := [0xC000000A#32] }, _,
   ⟨parserInv_parsing.p1, parserInv_parsing.p3, parserInv_parsing.p4, parserInv_parsing.p5, parserInv_parsing.sizes⟩, rfl, by decide⟩

theorem witness_StepKeepsStoreAndHeldCommand : ∃ s t : State, step s = .next t ∧ ParserInv s ∧ StoreInv s ∧ HeldInv s ∧
    t.held = some .flush :=
  ⟨{ sending .simple 0x41#8 0#4 false [] with port := [0x18000000#32] }, _, rfl,
   ⟨by decide, by decide, by decide, ⟨by show ∀ b ∈ _, _; decide, by show ∀ b ∈ _, _; decide⟩, by decide⟩, storeInv_of_empty rfl,
   nofun, by decide⟩

theorem witness_ResetGivesEveryElementItsValue :
    ∃ s r : State, r = s.applyReset ∧ s.tx.wire ≠ [] ∧ s.fault ≠ none :=
  ⟨{ sending .coop 0x41#8 4#4 false [0x42#8] with
      fault := some .cursorRange, tx := { (sending .coop 0x41#8 4#4 false []).tx with wire := [false] } }, _, rfl, by decide, by decide⟩

theorem witness_RingRefinesTheQueue : (Ring.reset 80).wf 80 ∧ TxEngine.reset.q = (Ring.reset 80).queue 80 ∧ (Ring.reset 1).wf 1 ∧
    1 ≤ 1 := by decide

end Sys2Proof.Tests
end

section
/-! PROOF. No event reads the other engine's state (O53; 00_scope R1, 10_state R20). Replacing one engine's part of the state commutes
with every operation of the other engine, so it commutes with each event's meaning; the engine bit of the word (30_encoding R80) says
whose event it is. -/

namespace Sys2Proof.Machine

/-! ### The engine bit of an event's word -/

/-- The opcode field of every event's word is the event's opcode (30_encoding R85). -/
theorem opField_encode : ∀ i : Instr, opField (encode i) = i.opcode
  | .beginTx baud pin => Laws.OpcodeField.beginTx baud pin
  | .enq byte g => Laws.OpcodeField.enq byte g
  | .flush => Laws.OpcodeField.flush
  | .endTx => Laws.OpcodeField.endTx
  | .tick => Laws.OpcodeField.tick
  | .prepare => Laws.OpcodeField.prepare
  | .startread => Laws.OpcodeField.startread
  | .stopread => Laws.OpcodeField.stopread
  | .regl => Laws.OpcodeField.regl
  | .unregl => Laws.OpcodeField.unregl
  | .rx byte => Laws.OpcodeField.rx byte
  | .timeout => Laws.OpcodeField.timeout
  | .pstop => Laws.OpcodeField.pstop

/-- Bit 31 of an event's word is the top bit of its opcode (30_encoding R80). -/
theorem encode_getLsbD_31 (i : Instr) : (encode i).getLsbD 31 = i.opcode.getLsbD 4 := by
  rw [← opField_encode i, opField]
  simp

/-! ### Changing the next state of an answer -/

/-- The answer with `f` done to its next state; faults and refusals stay. -/
def mapNext (f : State → State) : Result → Result
  | .next t => .next (f t)
  | .fault e => .fault e
  | .refused e => .refused e

/-- A choice whose branches are the images under `f` of the branches of another is the image of that choice. -/
theorem ite_eq_apply {α : Type} {c : Prop} [Decidable c] (f : α → α) {a b a' b' : α} (ha : a' = f a) (hb : b' = f b) :
    (if c then a' else b') = f (if c then a else b) := by
  rw [apply_ite f, ha, hb]

/-- The halted test commutes with a change of the state that leaves `fault` alone. -/
theorem unlessHalted_mapNext {f : State → State} {s s' : State} {q q' : Result} (hf : s'.fault = s.fault)
    (hq : q' = mapNext f q) : unlessHalted s' q' = mapNext f (unlessHalted s q) := by
  have hh : s'.halted = s.halted := by rw [State.halted, hf, State.halted]
  rw [unlessHalted, hh]
  exact ite_eq_apply (mapNext f) rfl hq

/-- The test of `begun` commutes with a change of the state that leaves `fault` and `begun` alone. -/
theorem whenBegun_mapNext {f : State → State} {s s' : State} {q q' : Result} (hf : s'.fault = s.fault)
    (hb : s'.tx.begun = s.tx.begun) (hq : q' = mapNext f q) : whenBegun s' q' = mapNext f (whenBegun s q) := by
  rw [whenBegun, hb]
  exact unlessHalted_mapNext hf (ite_eq_apply (mapNext f) hq rfl)

/-! ### Another parser engine under the TX events -/

/-- The state with the parser engine `P` and the parser result `r` (10_state R20). -/
def State.withParser (P : ParserEngine) (r : Status) (s : State) : State := { s with ps := P, pResult := r }

section
variable (P : ParserEngine) (r : Status) (s : State)

@[simp] theorem State.withParser_params : (s.withParser P r).params = s.params := rfl
@[simp] theorem State.withParser_tx : (s.withParser P r).tx = s.tx := rfl
@[simp] theorem State.withParser_fault : (s.withParser P r).fault = s.fault := rfl

theorem answer_withParser (o : SchedOut) : (s.withParser P r).answer o = (s.answer o).withParser P r :=
  ite_eq_apply (State.withParser P r) rfl rfl

theorem noteReleased_withParser : (s.withParser P r).noteReleased = s.noteReleased.withParser P r :=
  ite_eq_apply (State.withParser P r) rfl rfl

theorem raiseFatal_withParser (c : FatalCode) :
    raiseFatal c (s.withParser P r) = mapNext (State.withParser P r) (raiseFatal c s) := by
  unfold raiseFatal State.latch
  rw [State.withParser_fault]
  cases s.fault <;> rfl

/-- What TICK's cases answer: an action for the scheduler and a new TX engine. -/
theorem answer_setTx_withParser (o : SchedOut) (u : TxEngine) :
    (.next { (s.withParser P r).answer o with tx := u } : Result) =
      mapNext (State.withParser P r) (.next { s.answer o with tx := u }) := by
  rw [answer_withParser]
  rfl

theorem execBegin_withParser (baud : Baud) (pin : Pin) :
    execBegin baud pin (s.withParser P r) = mapNext (State.withParser P r) (execBegin baud pin s) := by
  refine unlessHalted_mapNext rfl (ite_eq_apply _ ?begun (ite_eq_apply _ ?zero (ite_eq_apply _ ?above ?configure)))
  case begun => exact raiseFatal_withParser P r s .timerBinding
  all_goals rfl

theorem enqFromIdle_withParser (u : TxEngine) (g : Bool) :
    enqFromIdle u g (s.withParser P r) = mapNext (State.withParser P r) (enqFromIdle u g s) :=
  ite_eq_apply _ rfl (ite_eq_apply _ rfl rfl)

theorem execEnq_withParser (byte : Byte) (g : Bool) :
    execEnq byte g (s.withParser P r) = mapNext (State.withParser P r) (execEnq byte g s) := by
  refine whenBegun_mapNext rfl rfl ?_
  rw [State.withParser_tx, State.withParser_params]
  cases s.tx.push s.params.qcap byte with
  | none => rfl
  | some u => exact ite_eq_apply _ rfl (enqFromIdle_withParser P r s u g)

theorem execFlush_withParser : execFlush (s.withParser P r) = mapNext (State.withParser P r) (execFlush s) :=
  whenBegun_mapNext rfl rfl (ite_eq_apply _ rfl rfl)

theorem execEnd_withParser : execEnd (s.withParser P r) = mapNext (State.withParser P r) (execEnd s) := by
  refine whenBegun_mapNext rfl rfl (ite_eq_apply _ (ite_eq_apply _ ?held ?ended) ?abandoned)
  case held => rfl
  case ended => rfl
  case abandoned => rw [noteReleased_withParser]; rfl

theorem tickCases_withParser : tickCases (s.withParser P r) = mapNext (State.withParser P r) (tickCases s) := by
  refine ite_eq_apply _ ?data (ite_eq_apply _ ?stop (ite_eq_apply _ (ite_eq_apply _ ?idle ?next) ?range))
  case range => exact raiseFatal_withParser P r s .cursorRange
  all_goals exact answer_setTx_withParser P r s _ _

theorem execTick_withParser : execTick (s.withParser P r) = mapNext (State.withParser P r) (execTick s) :=
  unlessHalted_mapNext rfl (ite_eq_apply _ (tickCases_withParser P r s) rfl)

theorem prepareRequested_withParser :
    prepareRequested (s.withParser P r) = mapNext (State.withParser P r) (prepareRequested s) :=
  ite_eq_apply _ rfl rfl

theorem execPrepare_withParser : execPrepare (s.withParser P r) = mapNext (State.withParser P r) (execPrepare s) :=
  unlessHalted_mapNext rfl (ite_eq_apply _ rfl (ite_eq_apply _ (prepareRequested_withParser P r s) rfl))

/-- A TX event answers the same over any parser engine and parser result, but for those parts. -/
theorem exec_withParser {i : Instr} (h : (encode i).getLsbD 31 = false) :
    exec i (s.withParser P r) = mapNext (State.withParser P r) (exec i s) := by
  rw [encode_getLsbD_31] at h
  cases i with
  | beginTx baud pin => exact execBegin_withParser P r s baud pin
  | enq byte g => exact execEnq_withParser P r s byte g
  | flush => exact execFlush_withParser P r s
  | endTx => exact execEnd_withParser P r s
  | tick => exact execTick_withParser P r s
  | prepare => exact execPrepare_withParser P r s
  | startread | stopread | regl | unregl | rx | timeout | pstop => simp [Instr.opcode] at h

end

/-! ### Another TX engine under the parser events -/

/-- The state with the TX engine `T` and the TX result `r` (10_state R20). -/
def State.withTx (T : TxEngine) (r : Status) (s : State) : State := { s with tx := T, txResult := r }

section
variable (T : TxEngine) (r : Status) (s : State)

@[simp] theorem State.withTx_params : (s.withTx T r).params = s.params := rfl
@[simp] theorem State.withTx_ps : (s.withTx T r).ps = s.ps := rfl
@[simp] theorem State.withTx_fault : (s.withTx T r).fault = s.fault := rfl

theorem raiseFatal_withTx (c : FatalCode) :
    raiseFatal c (s.withTx T r) = mapNext (State.withTx T r) (raiseFatal c s) := by
  unfold raiseFatal State.latch
  rw [State.withTx_fault]
  cases s.fault <;> rfl

theorem notifyChange_withTx (fid : Nat) (kind : Kind) (d : FieldValue) :
    (s.withTx T r).notifyChange fid kind d = (s.notifyChange fid kind d).withTx T r :=
  ite_eq_apply (State.withTx T r) rfl rfl

theorem dispatch_withTx (L V : List Byte7) : dispatch L V (s.withTx T r) = (dispatch L V s).withTx T r := by
  unfold dispatch
  rw [State.withTx_params]
  cases findField s.params.registry L with
  | none => rfl
  | some row =>
    obtain ⟨fid, kind⟩ := row
    dsimp only
    cases decodeField kind V with
    | none => rfl
    | some d => exact ite_eq_apply (State.withTx T r) rfl (notifyChange_withTx T r (s.setField fid d) fid kind d)

theorem rxTrailer_withTx (b7 : Byte7) : rxTrailer b7 (s.withTx T r) = (rxTrailer b7 s).withTx T r := by
  refine ite_eq_apply (State.withTx T r) ?dispatched rfl
  case dispatched => rw [State.withTx_ps, dispatch_withTx]; rfl

theorem rxByte_withTx (b7 : Byte7) : rxByte b7 (s.withTx T r) = (rxByte b7 s).withTx T r := by
  unfold rxByte
  rw [State.withTx_ps]
  cases s.ps.pstate with
  | stopped => rfl
  | waitStart => exact ite_eq_apply (State.withTx T r) rfl (ite_eq_apply _ rfl rfl)
  | groups => exact ite_eq_apply (State.withTx T r) rfl (ite_eq_apply _ rfl rfl)
  | label => exact ite_eq_apply (State.withTx T r) rfl (ite_eq_apply _ rfl rfl)
  | value => exact ite_eq_apply (State.withTx T r) rfl (ite_eq_apply _ rfl rfl)
  | checksum => exact ite_eq_apply (State.withTx T r) rfl rfl
  | trailer => exact rxTrailer_withTx T r s b7

theorem execStartread_withTx : execStartread (s.withTx T r) = mapNext (State.withTx T r) (execStartread s) :=
  unlessHalted_mapNext rfl (ite_eq_apply _ rfl rfl)

theorem execStopread_withTx : execStopread (s.withTx T r) = mapNext (State.withTx T r) (execStopread s) :=
  unlessHalted_mapNext rfl rfl

theorem execRegl_withTx : execRegl (s.withTx T r) = mapNext (State.withTx T r) (execRegl s) :=
  unlessHalted_mapNext rfl (ite_eq_apply _ (raiseFatal_withTx T r s .doubleListener) rfl)

theorem execUnregl_withTx : execUnregl (s.withTx T r) = mapNext (State.withTx T r) (execUnregl s) :=
  unlessHalted_mapNext rfl rfl

theorem execRx_withTx (byte : Byte) : execRx byte (s.withTx T r) = mapNext (State.withTx T r) (execRx byte s) :=
  unlessHalted_mapNext rfl (ite_eq_apply _ (congrArg Host.Outcome.next (rxByte_withTx T r s (mask7 byte))) rfl)

theorem execTimeout_withTx : execTimeout (s.withTx T r) = mapNext (State.withTx T r) (execTimeout s) :=
  unlessHalted_mapNext rfl (ite_eq_apply _ rfl rfl)

theorem execPstop_withTx : execPstop (s.withTx T r) = mapNext (State.withTx T r) (execPstop s) :=
  unlessHalted_mapNext rfl (ite_eq_apply _ rfl rfl)

/-- A parser event answers the same over any TX engine and TX result, but for those parts. -/
theorem exec_withTx {i : Instr} (h : (encode i).getLsbD 31 = true) :
    exec i (s.withTx T r) = mapNext (State.withTx T r) (exec i s) := by
  rw [encode_getLsbD_31] at h
  cases i with
  | startread => exact execStartread_withTx T r s
  | stopread => exact execStopread_withTx T r s
  | regl => exact execRegl_withTx T r s
  | unregl => exact execUnregl_withTx T r s
  | rx byte => exact execRx_withTx T r s byte
  | timeout => exact execTimeout_withTx T r s
  | pstop => exact execPstop_withTx T r s
  | beginTx | enq | flush | endTx | tick | prepare => simp [Instr.opcode] at h

end

/-- Settles O53: another parser engine passes through every TX event, and another TX engine through every parser event. -/
theorem enginesDoNotInterfere : Obligations.EnginesDoNotInterfere := by
  refine ⟨fun i s P r h => (exec_withParser P r s h).trans ?_, fun i s T r h => (exec_withTx T r s h).trans ?_⟩
  · cases exec i s <;> rfl
  · cases exec i s <;> rfl

end Sys2Proof.Machine
end

section
/-! PROOF. What an event can do, once per part of the state: to the TX engine (`TxMove`), to the parser engine (`ParserMove`), and to
the results, the latch, the held command and the logs (`Outputs`). Every statement about all events is derived from these three. -/

namespace Sys2Proof.Machine

variable {i : Instr} {s t : State}

/-! ### An event leaves the other engine as it is -/

/-- A TX event leaves the parser engine and the parser result: they pass through it (10_state R20, 30_encoding R80). -/
theorem exec_ps_of_txEvent (h : exec i s = .next t) (hbit : i.opcode.getLsbD 4 = false) :
    t.ps = s.ps ∧ t.pResult = s.pResult := by
  have through : exec i s = mapNext (State.withParser s.ps s.pResult) (exec i s) :=
    exec_withParser s.ps s.pResult s ((encode_getLsbD_31 i).trans hbit)
  rw [h, mapNext, Host.Outcome.next.injEq] at through
  have hps := congrArg State.ps through
  have hres := congrArg State.pResult through
  exact ⟨hps, hres⟩

/-- A parser event leaves the TX engine and the TX result: they pass through it (10_state R20, 30_encoding R80). -/
theorem exec_tx_of_parserEvent (h : exec i s = .next t) (hbit : i.opcode.getLsbD 4 = true) :
    t.tx = s.tx ∧ t.txResult = s.txResult := by
  have through : exec i s = mapNext (State.withTx s.tx s.txResult) (exec i s) :=
    exec_withTx s.tx s.txResult s ((encode_getLsbD_31 i).trans hbit)
  rw [h, mapNext, Host.Outcome.next.injEq] at through
  have htx := congrArg State.tx through
  have hres := congrArg State.txResult through
  exact ⟨htx, hres⟩

/-! ### The TX engine -/

/-- Everything event `i` of a block with parameters `p` can do to the TX engine (40_tx_host_commands, 41_tx_bit_engine,
42_tx_timeslot). -/
inductive TxMove (p : Params) : Instr → TxEngine → TxEngine → Prop
  | keep {i : Instr} {e : TxEngine} : TxMove p i e e
  | configure {baud : Baud} {pin : Pin} {e : TxEngine} (unbegun : e.begun = false) :
      TxMove p (.beginTx baud pin) e (e.configure p baud pin)
  | append {b : Byte} {g : Bool} {e : TxEngine} (begun : e.begun = true) (room : e.q.length < p.qcap) (busy : e.busy = true) :
      TxMove p (.enq b g) e (e.append b)
  | startSimple {b : Byte} {g : Bool} {e : TxEngine} (begun : e.begun = true) (room : e.q.length < p.qcap) (idle : e.busy = false)
      (simple : p.variant = .simple) : TxMove p (.enq b g) e (e.append b).startSimple
  | request {b : Byte} {g : Bool} {e : TxEngine} (begun : e.begun = true) (room : e.q.length < p.qcap) (idle : e.busy = false)
      (coop : p.variant = .coop) : TxMove p (.enq b g) e { e.append b with busy := true, gs := .requested }
  | deny {b : Byte} {g : Bool} {e : TxEngine} (begun : e.begun = true) (room : e.q.length < p.qcap) (idle : e.busy = false)
      (coop : p.variant = .coop) : TxMove p (.enq b g) e (e.append b)
  | release {e : TxEngine} (idle : e.busy = false) (simple : p.variant = .simple) : TxMove p .endTx e { e with begun := false }
  | abandon {e : TxEngine} (coop : p.variant = .coop) : TxMove p .endTx e e.abandon
  | dataBit {e : TxEngine} (timer : e.timerRun = true) (cursor : e.cursor ≤ 7#4) : TxMove p .tick e e.dataBit
  | stopBit {e : TxEngine} (timer : e.timerRun = true) (cursor : e.cursor = 8#4) : TxMove p .tick e e.stopBit
  | goIdle {e : TxEngine} (timer : e.timerRun = true) (cursor : e.cursor = 9#4) (empty : e.q = []) :
      TxMove p .tick e (e.goIdle (!(p.variant == .simple)))
  | nextByte {e : TxEngine} (timer : e.timerRun = true) (cursor : e.cursor = 9#4) (queued : e.q ≠ []) :
      TxMove p .tick e e.startByte
  | emptyWindow {e : TxEngine} (coop : p.variant = .coop) (gs : e.gs = .requested) (empty : e.q = []) :
      TxMove p .prepare e { e with gs := .none, busy := false }
  | openWindow {e : TxEngine} (coop : p.variant = .coop) (gs : e.gs = .requested) (queued : e.q ≠ []) :
      TxMove p .prepare e e.openWindow

theorem execEnq_txMove {b : Byte} {g : Bool} (h : execEnq b g s = .next t) : TxMove s.params (.enq b g) s.tx t.tx := by
  obtain ⟨-, hbegun, ⟨-, rfl⟩ | ⟨hroom, ⟨hbusy, rfl⟩ | ⟨hidle, hstart⟩⟩⟩ := execEnq_next.1 h
  · exact .keep
  · exact .append hbegun hroom hbusy
  · obtain ⟨hv, rfl⟩ | ⟨hv, -, rfl⟩ | ⟨hv, -, rfl⟩ := enqFromIdle_next.1 hstart
    · exact .startSimple hbegun hroom hidle hv
    · exact .request hbegun hroom hidle hv
    · exact .deny hbegun hroom hidle hv

theorem execTick_txMove (h : execTick s = .next t) : TxMove s.params .tick s.tx t.tx := by
  obtain ⟨hf, htimer, hcases⟩ := execTick_next.1 h
  obtain ⟨hc, rfl⟩ | ⟨hc, rfl⟩ | ⟨hc, hq, rfl⟩ | ⟨hc, hq, rfl⟩ | ⟨-, rfl⟩ := (tickCases_next hf).1 hcases
  · exact .dataBit htimer hc
  · exact .stopBit htimer hc
  · exact .goIdle htimer hc hq
  · exact .nextByte htimer hc hq
  · exact .keep

theorem exec_txMove (h : exec i s = .next t) : TxMove s.params i s.tx t.tx := by
  cases i with
  | beginTx baud pin =>
    obtain ⟨-, ⟨-, rfl⟩ | ⟨hb, -, -, rfl⟩⟩ := execBegin_next.1 h
    · exact .keep
    · exact .configure hb
  | enq b g => exact execEnq_txMove h
  | flush =>
    obtain ⟨-, -, ⟨-, -, rfl⟩ | ⟨-, rfl⟩⟩ := execFlush_next.1 h
    · exact .keep
    · exact .keep
  | endTx =>
    obtain ⟨-, -, ⟨-, -, rfl⟩ | ⟨hv, hidle, rfl⟩ | ⟨hv, rfl⟩⟩ := execEnd_next.1 h
    · exact .keep
    · exact .release hidle hv
    · exact .abandon hv
  | tick => exact execTick_txMove h
  | prepare =>
    obtain ⟨-, hv, ⟨hg, hq, rfl⟩ | ⟨hg, hq, rfl⟩ | ⟨-, rfl⟩⟩ := execPrepare_next.1 h
    · exact .emptyWindow hv hg hq
    · exact .openWindow hv hg hq
    · exact .keep
  | startread | stopread | regl | unregl | rx | timeout | pstop =>
    rw [(exec_tx_of_parserEvent h (by simp [Instr.opcode])).1]
    exact .keep

/-! ### The parser engine -/

/-- Everything event `i` of a block with parameters `p` can do to the parser engine (43_parser_framing, 44_field_registry). -/
inductive ParserMove (p : Params) : Instr → ParserEngine → ParserEngine → Prop
  | keep {i : Instr} {e : ParserEngine} : ParserMove p i e e
  | startread {e : ParserEngine} : ParserMove p .startread e { e with pstate := .waitStart, stopReq := false }
  | stopread {e : ParserEngine} : ParserMove p .stopread e { e with stopReq := e.stopReq || e.pstate != .stopped }
  | regl {e : ParserEngine} : ParserMove p .regl e { e with listener := true }
  | unregl {e : ParserEngine} : ParserMove p .unregl e { e with listener := false }
  | pstop {e : ParserEngine} : ParserMove p .pstop e { e with pstate := .stopped, stopReq := false }
  | timeout {e : ParserEngine} : ParserMove p .timeout e { e with pstate := .waitStart }
  | goto {byte : Byte} {q : PState} {e : ParserEngine} (notLabel : q ≠ .label) (notStopped : q ≠ .stopped) :
      ParserMove p (.rx byte) e { e with pstate := q }
  | newGroup {byte : Byte} {e : ParserEngine} (groups : e.pstate = .groups) :
      ParserMove p (.rx byte) e { e with lablen := 0#3, vallen := 0#4, pstate := .label }
  | labelByte {byte : Byte} {b : Byte7} {e : ParserEngine} (label : e.pstate = .label) (notSpace : b ≠ Config.SP)
      (room : e.lablen.toNat < p.labelMax.val) : ParserMove p (.rx byte) e (e.appendLabel b)
  | valueByte {byte : Byte} {b : Byte7} {e : ParserEngine} (value : e.pstate = .value) (notSpace : b ≠ Config.SP)
      (room : e.vallen.toNat < p.valueMax.val) : ParserMove p (.rx byte) e (e.appendValue b)
  | store {byte : Byte} {fid : Nat} {kind : Kind} {d : FieldValue} {e : ParserEngine} (trailer : e.pstate = .trailer)
      (row : findField p.registry e.label = some (fid, kind)) (decoded : decodeField kind e.value = some d) :
      ParserMove p (.rx byte) e { e with store := e.store.set fid { valid := true, value := d }, pstate := .groups }

theorem dispatch_parserMove (byte : Byte) (trailer : s.ps.pstate = .trailer) :
    ParserMove s.params (.rx byte) s.ps ((dispatch s.ps.label s.ps.value s).goto .groups).ps := by
  obtain ⟨e, h⟩ | h | ⟨fid, kind, d, hrow, hd, -, h⟩ := dispatch_cases s.ps.label s.ps.value s
  · rw [h]; exact .goto nofun nofun
  · rw [h]; exact .goto nofun nofun
  · rw [h, State.goto_ps, State.notifyChange_ps]; exact .store trailer hrow hd

theorem rxByte_parserMove (byte : Byte) (b7 : Byte7) : ParserMove s.params (.rx byte) s.ps (rxByte b7 s).ps := by
  obtain h | ⟨q, -, hl, hs, h⟩ | h | h | ⟨e, h⟩ | ⟨hp, h⟩ | ⟨hp, hsp, hroom, h⟩ | ⟨hp, hsp, hroom, h⟩ | ⟨hp, -, h⟩ :=
    rxByte_cases b7 s <;> rw [h]
  · exact .keep
  · exact .goto hl hs
  · exact .keep
  · exact .goto nofun nofun
  · exact .goto nofun nofun
  · exact .newGroup hp
  · exact .labelByte hp hsp hroom
  · exact .valueByte hp hsp hroom
  · exact dispatch_parserMove byte hp

theorem exec_parserMove (h : exec i s = .next t) : ParserMove s.params i s.ps t.ps := by
  cases i with
  | startread => obtain ⟨-, -, rfl⟩ := execStartread_next.1 h; exact .startread
  | stopread => obtain ⟨-, rfl⟩ := execStopread_next.1 h; exact .stopread
  | regl =>
    obtain ⟨-, ⟨-, rfl⟩ | ⟨-, rfl⟩⟩ := execRegl_next.1 h
    · exact .keep
    · exact .regl
  | unregl => obtain ⟨-, rfl⟩ := execUnregl_next.1 h; exact .unregl
  | rx byte => obtain ⟨-, -, -, rfl⟩ := execRx_next.1 h; exact rxByte_parserMove byte (mask7 byte)
  | timeout => obtain ⟨-, -, -, rfl⟩ := execTimeout_next.1 h; exact .timeout
  | pstop => obtain ⟨-, -, -, rfl⟩ := execPstop_next.1 h; exact .pstop
  | beginTx | enq | flush | endTx | tick | prepare =>
    rw [(exec_ps_of_txEvent h (by simp [Instr.opcode])).1]
    exact .keep

/-! ### Results, latch, held command and logs -/

/-- `after` is the history `before`, or, where a writer is at work, `before` with one entry more. -/
inductive Grows {α : Type} (writer : Prop) (before : List α) : List α → Prop
  | same : Grows writer before before
  | one (written : writer) (x : α) : Grows writer before (before ++ [x])

section
variable {α : Type} {writer : Prop} {before after : List α}

@[simp] theorem grows_self : Grows writer before before := .same

@[simp] theorem grows_append_singleton (written : writer) (x : α) : Grows writer before (before ++ [x]) := .one written x

theorem Grows.isPrefix (h : Grows writer before after) : before <+: after := by
  cases h with
  | same => exact List.prefix_rfl
  | one _ x => exact List.prefix_append ..

theorem Grows.writer_of_ne (h : Grows writer before after) (hne : after ≠ before) : writer := by
  cases h with
  | same => exact absurd rfl hne
  | one written x => exact written

theorem grows_ite {c : Prop} [Decidable c] {after' : List α} (h : Grows writer before after) (h' : Grows writer before after') :
    Grows writer before (if c then after else after') := by
  split
  · exact h
  · exact h'

end

/-- What an event that takes `s` to `t` leaves of the parameters, the results, the latch, the held command and the logs, and which
events write each of them (10_state R41, R42, R46, and the model's `held` and `schedLog`, log entries 3 and 10). -/
structure Outputs (i : Instr) (s t : State) : Prop where
  params : t.params = s.params
  fault : t.fault ≠ s.fault → i = .tick ∨ i = .regl ∨ ∃ baud pin, i = .beginTx baud pin
  txResult : t.txResult ≠ s.txResult → (∃ baud pin, i = .beginTx baud pin) ∨ (∃ b g, i = .enq b g) ∨ i = .flush ∨ i = .endTx
  pResult : t.pResult ≠ s.pResult → i = .startread ∨ i = .stopread ∨ i = .regl ∨ i = .unregl
  held : t.held ≠ s.held → (i = .flush ∨ i = .endTx) ∧ s.params.variant = .simple ∧ s.tx.begun = true ∧ t.tx = s.tx
  statusLog : Grows (i = .endTx ∨ i = .pstop ∨ i = .timeout ∨ ∃ byte, i = .rx byte) s.statusLog t.statusLog
  errLog : Grows ((∃ b g, i = .enq b g) ∨ i = .timeout ∨ ∃ byte, i = .rx byte) s.errLog t.errLog
  notifyLog : Grows (∃ byte, i = .rx byte) s.notifyLog t.notifyLog
  schedLog : Grows ((∃ b g, i = .enq b g) ∨ i = .tick ∨ i = .prepare) s.schedLog t.schedLog

theorem execEnq_outputs {b : Byte} {g : Bool} (h : execEnq b g s = .next t) : Outputs (.enq b g) s t := by
  obtain ⟨-, -, ⟨-, rfl⟩ | ⟨-, ⟨-, rfl⟩ | ⟨-, hstart⟩⟩⟩ := execEnq_next.1 h
  · constructor <;> simp
  · constructor <;> simp
  · obtain ⟨-, rfl⟩ | ⟨-, -, rfl⟩ | ⟨-, -, rfl⟩ := enqFromIdle_next.1 hstart <;> constructor <;> simp

theorem execTick_outputs (h : execTick s = .next t) : Outputs .tick s t := by
  obtain ⟨hf, -, hcases⟩ := execTick_next.1 h
  obtain ⟨-, rfl⟩ | ⟨-, rfl⟩ | ⟨-, -, rfl⟩ | ⟨-, -, rfl⟩ | ⟨-, rfl⟩ := (tickCases_next hf).1 hcases <;>
    constructor <;> simp [grows_ite]

theorem dispatch_outputs (byte : Byte) (L V : List Byte7) : Outputs (.rx byte) s ((dispatch L V s).goto .groups) := by
  obtain ⟨e, h⟩ | h | ⟨fid, kind, d, -, -, -, h⟩ := dispatch_cases L V s <;> rw [h]
  · constructor <;> simp
  · constructor <;> simp
  · cases hl : s.ps.listener <;> constructor <;> simp [hl]

theorem rxByte_outputs (byte : Byte) (b7 : Byte7) : Outputs (.rx byte) s (rxByte b7 s) := by
  obtain h | ⟨_, _, _, _, h⟩ | h | h | ⟨_, h⟩ | ⟨_, h⟩ | ⟨_, _, _, h⟩ | ⟨_, _, _, h⟩ | ⟨_, _, h⟩ := rxByte_cases b7 s <;> rw [h]
  on_goal 9 => exact dispatch_outputs byte s.ps.label s.ps.value
  all_goals constructor <;> simp

theorem exec_outputs (h : exec i s = .next t) : Outputs i s t := by
  cases i with
  | beginTx baud pin =>
    obtain ⟨-, ⟨-, rfl⟩ | ⟨-, -, -, rfl⟩⟩ := execBegin_next.1 h <;> constructor <;> simp
  | enq b g => exact execEnq_outputs h
  | flush =>
    obtain ⟨-, hb, ⟨hv, -, rfl⟩ | ⟨-, rfl⟩⟩ := execFlush_next.1 h <;> constructor <;> simp [*]
  | endTx =>
    obtain ⟨-, hb, ⟨hv, -, rfl⟩ | ⟨-, -, rfl⟩ | ⟨-, rfl⟩⟩ := execEnd_next.1 h <;> constructor <;> simp [*, grows_ite]
  | tick => exact execTick_outputs h
  | prepare =>
    obtain ⟨-, -, ⟨-, -, rfl⟩ | ⟨-, -, rfl⟩ | ⟨-, rfl⟩⟩ := execPrepare_next.1 h <;> constructor <;> simp
  | startread => obtain ⟨-, -, rfl⟩ := execStartread_next.1 h; constructor <;> simp
  | stopread => obtain ⟨-, rfl⟩ := execStopread_next.1 h; constructor <;> simp
  | regl => obtain ⟨-, ⟨-, rfl⟩ | ⟨-, rfl⟩⟩ := execRegl_next.1 h <;> constructor <;> simp
  | unregl => obtain ⟨-, rfl⟩ := execUnregl_next.1 h; constructor <;> simp
  | rx byte => obtain ⟨-, -, -, rfl⟩ := execRx_next.1 h; exact rxByte_outputs byte (mask7 byte)
  | timeout => obtain ⟨-, -, -, rfl⟩ := execTimeout_next.1 h; constructor <;> simp
  | pstop => obtain ⟨-, -, -, rfl⟩ := execPstop_next.1 h; constructor <;> simp

end Sys2Proof.Machine
end

section
/-! PROOF. The TX engine's invariants (O54, O55; 10_state R34). The invariants I1 to I7 say that the engine is in one of three phases,
idle, waiting for its window, or sending; every move of the engine leads from a phase to a phase. -/

namespace Sys2Proof.Machine

variable {i : Instr} {p : Params} {v : Variant} {e e' : TxEngine} {s t : State}

/-! ### What a byte's start does to a queue that holds one -/

@[simp] theorem TxEngine.startByte_cursor (h : e.q ≠ []) : e.startByte.cursor = 0#4 := by
  obtain ⟨b, rest, hq⟩ := List.exists_cons_of_ne_nil h
  rw [startByte_of_cons hq]

@[simp] theorem TxEngine.startByte_wire (h : e.q ≠ []) : e.startByte.wire = e.wire ++ [false] := by
  obtain ⟨b, rest, hq⟩ := List.exists_cons_of_ne_nil h
  rw [startByte_of_cons hq]

theorem TxEngine.append_q_ne_nil (b : Byte) (e : TxEngine) : (e.append b).q ≠ [] := by simp

/-! ### The three phases -/

/-- The engine transmits nothing and has asked for nothing. -/
structure TxIdle (v : Variant) (e : TxEngine) : Prop where
  busy : e.busy = false
  timerRun : e.timerRun = false
  cursor : e.cursor = 0#4
  line : e.line = true
  gs : e.gs = .none
  empty : v = .simple ∨ e.begun = false → e.q = []

/-- The COOP engine has bytes to send and a window accepted for them. -/
structure TxWaiting (v : Variant) (e : TxEngine) : Prop where
  coop : v = .coop
  busy : e.busy = true
  timerRun : e.timerRun = false
  begun : e.begun = true
  cursor : e.cursor = 0#4
  line : e.line = true
  gs : e.gs = .requested
  queued : e.q ≠ []

/-- The grant under which a byte is in flight (10_state R32). -/
def sendingGrant : Variant → Grant
  | .simple => .none
  | .coop => .active

/-- A byte is in flight. -/
structure TxSending (v : Variant) (e : TxEngine) : Prop where
  busy : e.busy = true
  timerRun : e.timerRun = true
  begun : e.begun = true
  cursor : e.cursor ≤ 9#4
  stopHigh : e.cursor = 9#4 → e.line = true
  gs : e.gs = sendingGrant v

/-- The engine of variant `v` is in one of its phases. -/
def TxPhase (v : Variant) (e : TxEngine) : Prop := TxIdle v e ∨ TxWaiting v e ∨ TxSending v e

/-- In a state with I1 to I7 the engine is in one of the phases. -/
theorem TxInv.phase (h : TxInv s) : TxPhase s.params.variant s.tx := by
  have begun_of_busy : s.tx.busy = true → s.tx.begun = true := fun hb => by
    by_contra hn
    simpa [hb] using h.i7 (by simpa using hn)
  cases ht : s.tx.timerRun with
  | true =>
    obtain ⟨hb, hbegun⟩ := h.i4 ht
    refine .inr (.inr ⟨hb, ht, hbegun, h.i2, h.stopHigh ht, ?_⟩)
    cases hv : s.params.variant with
    | simple => exact h.simpleNoGrant hv
    | coop => exact (h.i6active hv).2 ht
  | false =>
    cases hb : s.tx.busy with
    | true =>
      have hv : s.params.variant = .coop := by
        cases hv : s.params.variant with
        | simple => simpa [hb, ht] using (h.i5 hv).1
        | coop => rfl
      have hg := (h.i6requested hv).2 ⟨hb, ht⟩
      obtain ⟨hq, hc, hl⟩ := h.i6waiting hv hg
      exact .inr (.inl ⟨hv, hb, ht, begun_of_busy hb, hc, hl, hg, List.ne_nil_of_length_pos hq⟩)
    | false =>
      obtain ⟨hc, -, hl, hg⟩ := h.i3 hb
      refine .inl ⟨hb, ht, hc, hl, hg, ?_⟩
      rintro (hv | hbegun)
      · exact (h.i5 hv).2 hb
      · exact (h.i7 hbegun).2

/-- An engine in one of the phases, with its queue within its capacity, has I1 to I7. -/
theorem TxPhase.txInv (hq : s.tx.q.length ≤ s.params.qcap) (h : TxPhase s.params.variant s.tx) : TxInv s := by
  obtain ⟨hb, ht, hc, hl, hg, hq'⟩ | ⟨hv, hb, ht, hbegun, hc, hl, hg, hq'⟩ | ⟨hb, ht, hbegun, hc, hl, hg⟩ := h
  · constructor <;> simp_all
  · constructor <;> simp_all [Nat.one_le_iff_ne_zero]
  · cases hv : s.params.variant <;> constructor <;> simp_all [sendingGrant]

theorem TxPhase.idle (h : TxPhase v e) (hb : e.busy = false) : TxIdle v e := by
  obtain h | h | h := h
  · exact h
  · simp [h.busy] at hb
  · simp [h.busy] at hb

theorem TxPhase.waiting (h : TxPhase v e) (hg : e.gs = .requested) : TxWaiting v e := by
  obtain h | h | h := h
  · simp [h.gs] at hg
  · exact h
  · rw [h.gs] at hg
    cases v <;> cases hg

theorem TxPhase.sending (h : TxPhase v e) (ht : e.timerRun = true) : TxSending v e := by
  obtain h | h | h := h
  · simp [h.timerRun] at ht
  · simp [h.timerRun] at ht
  · exact h

theorem TxPhase.idle_of_unbegun (h : TxPhase v e) (hb : e.begun = false) : TxIdle v e := by
  obtain h | h | h := h
  · exact h
  · simp [h.begun] at hb
  · simp [h.begun] at hb

/-! ### Every move leads from a phase to a phase -/

/-- The queue takes a byte in any phase but the idle one (40_tx_host_commands R102). -/
theorem TxPhase.append (h : TxPhase v e) (hb : e.busy = true) (b : Byte) : TxPhase v (e.append b) := by
  obtain h | h | h := h
  · simp [h.busy] at hb
  · exact .inr (.inl { h with queued := TxEngine.append_q_ne_nil b e })
  · exact .inr (.inr { h with })

/-- A byte's start: from idle in SIMPLE (R102), at the stop bit before (R123), or when the window opens (42_tx_timeslot R143). -/
theorem TxSending.of_startByte (hq : e.q ≠ []) (busy : e'.busy = true) (timer : e'.timerRun = true) (begun : e'.begun = true)
    (gs : e'.gs = sendingGrant v) (cursor : e'.cursor = e.startByte.cursor) : TxSending v e' := by
  rw [TxEngine.startByte_cursor hq] at cursor
  exact ⟨busy, timer, begun, by simp [cursor], by simp [cursor], gs⟩

/-- The data bits leave cursor 9 to the stop bit (41_tx_bit_engine R121, R122). -/
theorem TxSending.dataBit (h : TxSending v e) (hc : e.cursor ≤ 7#4) : TxSending v e.dataBit :=
  { h with
    cursor := by rw [TxEngine.dataBit_cursor]; bv_omega
    stopHigh := fun h9 => by rw [TxEngine.dataBit_cursor] at h9; bv_omega }

theorem TxSending.stopBit (h : TxSending v e) : TxSending v e.stopBit :=
  { h with cursor := by simp, stopHigh := fun _ => rfl }

/-- After the last stop bit the line stays high and the grant is over (41_tx_bit_engine R124, 42_tx_timeslot R146). -/
theorem TxSending.goIdle (h : TxSending v e) (hc : e.cursor = 9#4) (hq : e.q = []) :
    TxIdle v (e.goIdle (!(v == .simple))) where
  busy := rfl
  timerRun := rfl
  cursor := rfl
  line := h.stopHigh hc
  gs := by cases v <;> simp [h.gs, sendingGrant]
  empty := fun _ => hq

theorem TxMove.keeps_phase (m : TxMove p i e e') (h : TxPhase p.variant e) : TxPhase p.variant e' := by
  cases m with
  | keep => exact h
  | configure unbegun =>
    have idle := h.idle_of_unbegun unbegun
    exact .inl { idle with line := rfl, empty := fun _ => idle.empty (.inr unbegun) }
  | append _ _ busy => exact h.append busy _
  | startSimple begun _ idle simple =>
    have gs := (h.idle idle).gs
    exact .inr (.inr (.of_startByte (TxEngine.append_q_ne_nil _ e) rfl rfl (by simp [begun]) (by simp [gs, simple, sendingGrant]) rfl))
  | request begun _ idle coop =>
    exact .inr (.inl { h.idle idle with
      coop := coop, begun := begun, busy := rfl, gs := rfl, queued := TxEngine.append_q_ne_nil _ e })
  | deny begun _ idle coop => exact .inl { h.idle idle with empty := by simp [coop, begun] }
  | release idle simple => exact .inl { h.idle idle with empty := fun _ => (h.idle idle).empty (.inl simple) }
  | abandon => exact .inl ⟨rfl, rfl, rfl, rfl, rfl, fun _ => rfl⟩
  | dataBit timer cursor => exact .inr (.inr ((h.sending timer).dataBit cursor))
  | stopBit timer => exact .inr (.inr (h.sending timer).stopBit)
  | goIdle timer cursor empty => exact .inl ((h.sending timer).goIdle cursor empty)
  | nextByte timer _ queued =>
    obtain ⟨busy, timer, begun, -, -, gs⟩ := h.sending timer
    exact .inr (.inr (.of_startByte queued (by simp [busy]) (by simp [timer]) (by simp [begun]) (by simp [gs]) rfl))
  | emptyWindow _ gs empty => exact absurd empty (h.waiting gs).queued
  | openWindow coop gs queued =>
    obtain ⟨-, busy, -, begun, -⟩ := h.waiting gs
    exact .inr (.inr (.of_startByte queued (by simp [busy]) rfl (by simp [begun]) (by simp [coop, sendingGrant]) rfl))

/-- A byte is queued only where there is room (20_memory R62). -/
theorem TxMove.keeps_capacity (m : TxMove p i e e') (h : e.q.length ≤ p.qcap) : e'.q.length ≤ p.qcap := by
  cases m with
  | append _ room | request _ room | deny _ room => simpa using room
  | startSimple | nextByte | openWindow => simp; omega
  | abandon => simp
  | keep | configure | release | dataBit | stopBit | goIdle | emptyWindow => exact h

theorem exec_keeps_txInv (h : TxInv s) (he : exec i s = .next t) : TxInv t := by
  have m := exec_txMove he
  rw [← (exec_outputs he).params] at m
  have hq : s.tx.q.length ≤ t.params.qcap := (exec_outputs he).params ▸ h.i1
  have hp : TxPhase t.params.variant s.tx := (exec_outputs he).params ▸ h.phase
  exact (m.keeps_phase hp).txInv (m.keeps_capacity hq)

/-- Settles O54: the invariants are the three phases and the bound on the queue; every move of the engine keeps both. -/
theorem stepKeepsTxInvariants : Obligations.StepKeepsTxInvariants := by
  intro s t hs h
  exact step_keeps (P := TxInv) (fun _ _ _ h => { h with }) (fun _ _ _ => exec_keeps_txInv) hs h

/-! ### The wire -/

/-- The invariant I8 of the engine alone. -/
def WholeBytes (e : TxEngine) : Prop :=
  (e.timerRun = false → e.wire.length % 10 = 0) ∧ (e.timerRun = true → e.wire.length % 10 = (e.cursor.toNat + 1) % 10)

theorem wireInv_iff_wholeBytes : WireInv s ↔ WholeBytes s.tx := Iff.rfl

/-- Between transmissions, the wire holds whole bytes, whatever else changes. -/
theorem WholeBytes.of_stopped (h : e'.timerRun = false) (hw : e'.wire.length % 10 = 0) : WholeBytes e' :=
  ⟨fun _ => hw, fun ht => by simp [h] at ht⟩

theorem WholeBytes.of_running (h : e'.timerRun = true) (hw : e'.wire.length % 10 = (e'.cursor.toNat + 1) % 10) : WholeBytes e' :=
  ⟨fun ht => by simp [h] at ht, fun _ => hw⟩

/-- A byte that starts after whole bytes drives one level of its ten (41_tx_bit_engine R126). -/
theorem WholeBytes.of_startByte (hq : e.q ≠ []) (hw : e.wire.length % 10 = 0) (ht : e'.timerRun = true)
    (hwire : e'.wire = e.startByte.wire) (hc : e'.cursor = e.startByte.cursor) : WholeBytes e' := by
  refine .of_running ht ?_
  simp [hwire, hc, hq]
  omega

theorem TxMove.keeps_wholeBytes (m : TxMove p i e e') (hp : TxPhase p.variant e) (h : WholeBytes e)
    (notCut : ¬(i = .endTx ∧ p.variant = .coop ∧ e.timerRun = true)) : WholeBytes e' := by
  obtain ⟨stopped, running⟩ := h
  cases m with
  | keep | configure | append | request | deny | release => exact ⟨stopped, running⟩
  | startSimple _ _ idle => exact .of_startByte (TxEngine.append_q_ne_nil _ e) (stopped (hp.idle idle).timerRun) rfl rfl rfl
  | abandon coop =>
    have timer : e.timerRun = false := by simpa [coop] using notCut
    exact .of_stopped rfl (stopped timer)
  | dataBit timer cursor =>
    refine .of_running timer ?_
    have level := running timer
    have next : (e.cursor + 1#4).toNat = e.cursor.toNat + 1 := by bv_omega
    simp only [TxEngine.dataBit_wire, TxEngine.dataBit_cursor, List.length_append, List.length_singleton, next]
    omega
  | stopBit timer cursor =>
    refine .of_running timer ?_
    have level := running timer
    simp [cursor] at level ⊢
    omega
  | goIdle timer cursor =>
    have level := running timer
    exact .of_stopped rfl (by simpa [cursor] using level)
  | nextByte timer cursor queued =>
    have level := running timer
    exact .of_startByte queued (by simpa [cursor] using level) ((TxEngine.startByte_timerRun e).trans timer) rfl rfl
  | emptyWindow _ gs empty => exact absurd empty (hp.waiting gs).queued
  | openWindow _ gs queued => exact .of_startByte queued (stopped (hp.waiting gs).timerRun) rfl rfl rfl

/-- Settles O55: a start bit follows whole bytes, the other nine levels of a byte follow it, and only an END of COOP stops between. -/
theorem eventsKeepWireInvariant : Obligations.EventsKeepWireInvariant := by
  intro i s t hs hw he notCut
  exact wireInv_iff_wholeBytes.2 ((exec_txMove he).keeps_wholeBytes hs.phase (wireInv_iff_wholeBytes.1 hw) notCut)

end Sys2Proof.Machine
end

section
/-! PROOF. The parser engine's invariants, the field store, the held command and the reset state (O56, O57, O58; 10_state R45, R40,
60_exceptions R244, 70_reset_and_hazards R270). -/

namespace Sys2Proof.Machine

variable {i : Instr} {s t : State}

/-! ### The buffers -/

/-- Writing a byte that is not SP keeps a buffer free of SP (10_state R45 P5). -/
theorem noSpaces_set {bs : List Byte7} {b : Byte7} (h : noSpaces bs) (hb : b ≠ Config.SP) (n : Nat) : noSpaces (bs.set n b) := by
  intro x hx
  obtain hx | rfl := List.mem_or_eq_of_mem_set hx
  · exact h x hx
  · exact hb

theorem noSpaces_replicate (n : Nat) : noSpaces (List.replicate n 0#7) := by
  intro b hb
  rw [List.eq_of_mem_replicate hb]
  decide

/-- A length below its bound counts one more byte within it (10_state R36, R37). -/
theorem toNat_add_one_le {w m : Nat} {len : BitVec w} (h : len.toNat < m) : (len + 1#w).toNat ≤ m := by
  rw [BitVec.toNat_add]
  calc (len.toNat + (1#w).toNat) % 2 ^ w
      ≤ len.toNat + (1#w).toNat := Nat.mod_le ..
    _ ≤ len.toNat + 1 := by simpa using Nat.mod_le 1 (2 ^ w)
    _ ≤ m := h

/-! ### P1, P3, P4, P5 -/

theorem ParserInv.labelByte {b : Byte7} (h : ParserInv s) (label : s.ps.pstate = .label) (hb : b ≠ Config.SP)
    (room : s.ps.lablen.toNat < s.params.labelMax.val) : ParserInv { s with ps := s.ps.appendLabel b } where
  p1 := ⟨toNat_add_one_le room, h.p1.2⟩
  p3 := h.p3
  p4 _ := by simp [label]
  p5 := ⟨noSpaces_set h.p5.1 hb _, h.p5.2⟩
  sizes := ⟨List.length_set.trans h.sizes.1, h.sizes.2⟩

theorem ParserInv.valueByte {b : Byte7} (h : ParserInv s) (value : s.ps.pstate = .value) (hb : b ≠ Config.SP)
    (room : s.ps.vallen.toNat < s.params.valueMax.val) : ParserInv { s with ps := s.ps.appendValue b } where
  p1 := ⟨h.p1.1, toNat_add_one_le room⟩
  p3 hp := by simp [value] at hp
  p4 _ := by simp [value]
  p5 := ⟨h.p5.1, noSpaces_set h.p5.2 hb _⟩
  sizes := ⟨h.sizes.1, List.length_set.trans h.sizes.2⟩

theorem ParserMove.keeps_parserInv {e : ParserEngine} (m : ParserMove s.params i s.ps e) (h : ParserInv s) :
    ParserInv { s with ps := e } := by
  cases m with
  | keep => exact h
  | regl | unregl => exact { h with }
  | startread | pstop => exact { h with p3 := nofun, p4 := nofun }
  | timeout | store => exact { h with p3 := nofun, p4 := fun _ => nofun }
  | stopread =>
    refine { h with p4 := fun hstop => ?_ }
    obtain hstop | hrun := Bool.or_eq_true .. ▸ hstop
    · exact h.p4 hstop
    · simpa using hrun
  | goto notLabel notStopped => exact { h with p3 := fun hq => absurd hq notLabel, p4 := fun _ => notStopped }
  | newGroup => exact { h with p1 := ⟨Nat.zero_le _, Nat.zero_le _⟩, p3 := fun _ => rfl, p4 := fun _ => nofun }
  | labelByte label notSpace room => exact h.labelByte label notSpace room
  | valueByte value notSpace room => exact h.valueByte value notSpace room

/-- The parser invariants are about the parser engine and the parameters alone. -/
theorem parserInv_congr (hps : t.ps = s.ps) (hp : t.params = s.params) (h : ParserInv s) : ParserInv t := by
  obtain ⟨p1, p3, p4, p5, sizes⟩ := h
  rw [← hps, ← hp] at p1 sizes
  rw [← hps] at p3 p4 p5
  exact ⟨p1, p3, p4, p5, sizes⟩

theorem exec_keeps_parserInv (h : ParserInv s) (he : exec i s = .next t) : ParserInv t :=
  parserInv_congr (s := { s with ps := t.ps }) rfl (exec_outputs he).params ((exec_parserMove he).keeps_parserInv h)

/-- Settles O56: every move of the parser engine keeps the invariants. -/
theorem stepKeepsParserInvariants : Obligations.StepKeepsParserInvariants := by
  intro s t hs h
  exact step_keeps (P := ParserInv) (fun _ _ _ h => { h with }) (fun _ _ _ => exec_keeps_parserInv) hs h

/-! ### The field store -/

/-- A decoded value fits its row: its kind is the row's, and a text is the value received (44_field_registry R202, R204). -/
theorem cellFits_of_decodeField {kind : Kind} {V : List Byte7} {d : FieldValue} {m : Nat} (hd : decodeField kind V = some d)
    (hV : V.length ≤ m) : cellFits m kind { valid := true, value := d } :=
  ⟨decodeField_kind hd, fun _ hb => decodeField_text (hd.trans (congrArg some hb)) ▸ hV⟩

theorem cellFits_zeroValue (m : Nat) (kind : Kind) : cellFits m kind { valid := false, value := zeroValue kind } := by
  cases kind with
  | text => exact ⟨rfl, fun _ hb => by cases hb; exact Nat.zero_le m⟩
  | uint | optarif | ptec => exact ⟨rfl, nofun⟩

/-- Storing a cell that fits its row keeps the store in the shape of the registry. -/
theorem StoreInv.set {fid : Nat} {c : Cell} (h : StoreInv s)
    (hc : ∀ row, s.params.registry[fid]? = some row → cellFits s.params.valueMax.val row.kind c) :
    StoreInv { s with ps := { s.ps with store := s.ps.store.set fid c } } where
  sameLength := List.length_set.trans h.sameLength
  fits n row c' hrow hc' := by
    by_cases hn : fid = n
    · subst hn
      obtain ⟨-, rfl⟩ : fid < s.ps.store.length ∧ c = c' := by simpa [List.getElem?_set] using hc'
      exact hc row hrow
    · exact h.fits n row c' hrow (by simpa [List.getElem?_set_ne hn] using hc')

theorem ParserMove.keeps_storeInv {e : ParserEngine} (m : ParserMove s.params i s.ps e) (hp : ParserInv s) (h : StoreInv s) :
    StoreInv { s with ps := e } := by
  cases m with
  | store _ hrow hd =>
    have hvalue : s.ps.value.length ≤ s.params.valueMax.val := (value_length_le s.ps).trans hp.p1.2
    obtain ⟨row, hreg, -, rfl⟩ := findField_eq_some hrow
    refine { h.set fun row' hrow' => ?_ with }
    obtain rfl : row = row' := Option.some.inj (hreg.symm.trans hrow')
    exact cellFits_of_decodeField hd hvalue
  | keep | regl | unregl | startread | stopread | pstop | timeout | goto | newGroup | labelByte | valueByte => exact { h with }

/-- The store invariant is about the field store and the parameters alone. -/
theorem storeInv_congr (hps : t.ps = s.ps) (hp : t.params = s.params) (h : StoreInv s) : StoreInv t := by
  obtain ⟨sameLength, fits⟩ := h
  rw [← hps, ← hp] at sameLength fits
  exact ⟨sameLength, fits⟩

theorem exec_keeps_storeInv (hp : ParserInv s) (h : StoreInv s) (he : exec i s = .next t) : StoreInv t :=
  storeInv_congr (s := { s with ps := t.ps }) rfl (exec_outputs he).params ((exec_parserMove he).keeps_storeInv hp h)

theorem step_keeps_storeInv (hp : ParserInv s) (h : StoreInv s) (hstep : step s = .next t) : StoreInv t :=
  (step_keeps (P := fun s => ParserInv s ∧ StoreInv s) (fun _ _ _ h => ⟨{ h.1 with }, { h.2 with }⟩)
    (fun _ _ _ h he => ⟨exec_keeps_parserInv h.1 he, exec_keeps_storeInv h.1 h.2 he⟩) ⟨hp, h⟩ hstep).2

/-! ### The held command -/

/-- `begun` changes at BEGIN, SIMPLE's END and COOP's END only (10_state R27). -/
theorem TxMove.begun_writer {p : Params} {e e' : TxEngine} (m : TxMove p i e e') (hne : e'.begun ≠ e.begun) :
    (∃ baud pin, i = .beginTx baud pin) ∨ i = .endTx := by
  cases m with
  | configure => exact .inl ⟨_, _, rfl⟩
  | release | abandon => exact .inr rfl
  | keep | append | startSimple | request | deny | dataBit | stopBit | goIdle | nextByte | emptyWindow | openWindow => simp at hne

/-- An event taken while nothing is held, or while the foreground waits and issues nothing, keeps `HeldInv` (60_exceptions R244). -/
theorem exec_keeps_heldInv (he : exec i s = .next t) (h : HeldInv s) (hi : s.held = none ∨ foregroundOnly i = false) : HeldInv t := by
  have outputs := exec_outputs he
  intro ht
  rw [outputs.params]
  by_cases hheld : t.held = s.held
  · rw [hheld] at ht
    obtain ⟨hv, hbegun⟩ := h ht
    refine ⟨hv, ?_⟩
    obtain hnone | hi := hi
    · simp [hnone] at ht
    · by_contra hne
      obtain ⟨_, _, rfl⟩ | rfl := (exec_txMove he).begun_writer (by simpa [hbegun] using hne)
      · cases hi
      · cases hi
  · obtain ⟨-, hv, hbegun, htx⟩ := outputs.held hheld
    exact ⟨hv, htx ▸ hbegun⟩

theorem step_keeps_heldInv (hstep : step s = .next t) (h : HeldInv s) : HeldInv t := by
  obtain ⟨-, rfl⟩ | ⟨i, s', hfetch, he⟩ := step_next hstep
  · exact h
  · obtain ⟨hd, pt, rfl, ⟨c, -, -, -, rfl⟩ | ⟨rfl, hwait⟩⟩ := fetch_eq_event hfetch
    · exact exec_keeps_heldInv he nofun (.inl rfl)
    · refine exec_keeps_heldInv he h ?_
      cases hheld : s.held with
      | none => exact .inl rfl
      | some c => exact .inr (hwait (by simp [hheld])).2

/-- Settles O57: the one move that writes the store writes a value decoded for its row, and a held command's engine stays begun. -/
theorem stepKeepsStoreAndHeldCommand : Obligations.StepKeepsStoreAndHeldCommand :=
  fun _ _ h => ⟨fun hp hs => step_keeps_storeInv hp hs h, step_keeps_heldInv h⟩

/-! ### The reset state -/

theorem txInv_resetOf (p : Params) : TxInv (State.resetOf p) :=
  TxPhase.txInv (Nat.zero_le _) (.inl ⟨rfl, rfl, rfl, rfl, rfl, fun _ => rfl⟩)

theorem parserInv_resetOf (p : Params) : ParserInv (State.resetOf p) where
  p1 := ⟨Nat.zero_le _, Nat.zero_le _⟩
  p3 := nofun
  p4 := nofun
  p5 := ⟨noSpaces_replicate _, noSpaces_replicate _⟩
  sizes := ⟨List.length_replicate, List.length_replicate⟩

theorem storeInv_resetOf (p : Params) : StoreInv (State.resetOf p) where
  sameLength := List.length_map ..
  fits n row c hrow hc := by
    have hcell : (p.registry[n]?).map (fun r => { valid := false, value := zeroValue r.kind }) = some c :=
      List.getElem?_map.symm.trans hc
    rw [show p.registry[n]? = some row from hrow] at hcell
    cases hcell
    exact cellFits_zeroValue _ row.kind

/-- Settles O58: after reset the engine is idle, the buffers hold zeros and each cell its kind's zero value. -/
theorem resetStateIsGood : Obligations.ResetStateIsGood :=
  fun p => ⟨⟨txInv_resetOf p, parserInv_resetOf p, storeInv_resetOf p, nofun⟩, fun _ => rfl, nofun⟩

end Sys2Proof.Machine
end

section
/-! PROOF. The histories and the parameters, the writers of each register, and the engine bit (O50, O51, O52; 10_state R20 to R46,
30_encoding R80). -/

namespace Sys2Proof.Machine

variable {i : Instr} {s t : State}

/-! ### Histories -/

theorem TxEngine.wire_prefix_startByte (e : TxEngine) : e.wire <+: e.startByte.wire := by
  by_cases hq : e.q = []
  · rw [startByte_of_nil hq]
  · rw [TxEngine.startByte_wire hq]
    exact List.prefix_append ..

/-- A level once driven stays on the wire trace (10_state R33). -/
theorem TxMove.wire_prefix {p : Params} {e e' : TxEngine} (m : TxMove p i e e') : e.wire <+: e'.wire := by
  cases m with
  | dataBit | stopBit => exact List.prefix_append ..
  | startSimple => exact TxEngine.wire_prefix_startByte (e.append _)
  | nextByte | openWindow => exact TxEngine.wire_prefix_startByte e
  | keep | configure | append | request | deny | release | abandon | goIdle | emptyWindow => exact List.prefix_rfl

/-- `t` has the parameters of `s` and extends its histories. -/
structure Extends (s t : State) : Prop where
  params : t.params = s.params
  wire : s.tx.wire <+: t.tx.wire
  statusLog : s.statusLog <+: t.statusLog
  errLog : s.errLog <+: t.errLog
  notifyLog : s.notifyLog <+: t.notifyLog
  schedLog : s.schedLog <+: t.schedLog

theorem Extends.refl (s : State) : Extends s s :=
  ⟨rfl, List.prefix_rfl, List.prefix_rfl, List.prefix_rfl, List.prefix_rfl, List.prefix_rfl⟩

theorem Extends.trans {u : State} (h : Extends s t) (h' : Extends t u) : Extends s u where
  params := h'.params.trans h.params
  wire := h.wire.trans h'.wire
  statusLog := h.statusLog.trans h'.statusLog
  errLog := h.errLog.trans h'.errLog
  notifyLog := h.notifyLog.trans h'.notifyLog
  schedLog := h.schedLog.trans h'.schedLog

theorem exec_extends (h : exec i s = .next t) : Extends s t where
  params := (exec_outputs h).params
  wire := (exec_txMove h).wire_prefix
  statusLog := (exec_outputs h).statusLog.isPrefix
  errLog := (exec_outputs h).errLog.isPrefix
  notifyLog := (exec_outputs h).notifyLog.isPrefix
  schedLog := (exec_outputs h).schedLog.isPrefix

theorem step_extends (h : step s = .next t) : Extends s t :=
  step_keeps (P := Extends s) (fun _ _ _ hs => { hs with }) (fun _ _ _ hs he => hs.trans (exec_extends he)) (.refl s) h

/-- Settles O50: every event extends the histories, and the fetch leaves them alone. -/
theorem historiesOnlyGrow : Obligations.HistoriesOnlyGrow := by
  intro s t h
  obtain ⟨params, wire, statusLog, errLog, notifyLog, schedLog⟩ := step_extends h
  exact ⟨params, wire, statusLog, errLog, notifyLog, schedLog⟩

/-! ### The writers of the TX engine's registers -/

section
variable {p : Params} {e e' : TxEngine}

theorem TxMove.configuration_eq (m : TxMove p i e e') (h : ∀ baud pin, i ≠ .beginTx baud pin) :
    e'.pin = e.pin ∧ e'.baud = e.baud ∧ e'.period = e.period ∧ e'.slotUs = e.slotUs ∧ e'.oe = e.oe := by
  cases m with
  | configure => exact absurd rfl (h _ _)
  | startSimple | nextByte | openWindow => simp
  | keep | append | request | deny | release | abandon | dataBit | stopBit | goIdle | emptyWindow => exact ⟨rfl, rfl, rfl, rfl, rfl⟩

theorem TxMove.queue_cases (m : TxMove p i e e') :
    e'.q = e.q ∨ (∃ b g, i = .enq b g ∧ (e'.q = e.q ++ [b] ∨ e'.q = (e.q ++ [b]).tail)) ∨
    (i = .tick ∨ i = .prepare) ∧ e'.q = e.q.tail ∨ i = .endTx ∧ e'.q = [] := by
  cases m with
  | keep | configure | release | dataBit | stopBit | goIdle | emptyWindow => exact .inl rfl
  | append | request | deny => exact .inr (.inl ⟨_, _, rfl, .inl rfl⟩)
  | startSimple => exact .inr (.inl ⟨_, _, rfl, .inr (by simp)⟩)
  | nextByte => exact .inr (.inr (.inl ⟨.inl rfl, TxEngine.startByte_q e⟩))
  | openWindow => exact .inr (.inr (.inl ⟨.inr rfl, TxEngine.startByte_q e⟩))
  | abandon => exact .inr (.inr (.inr ⟨rfl, rfl⟩))

theorem TxMove.transmission_writer (m : TxMove p i e e')
    (h : e'.busy ≠ e.busy ∨ e'.timerRun ≠ e.timerRun ∨ e'.cursor ≠ e.cursor ∨ e'.gs ≠ e.gs) :
    (∃ b g, i = .enq b g) ∨ i = .tick ∨ i = .prepare ∨ i = .endTx := by
  cases m with
  | keep | configure | release => simp at h
  | append | startSimple | request | deny => exact .inl ⟨_, _, rfl⟩
  | dataBit | stopBit | goIdle | nextByte => exact .inr (.inl rfl)
  | emptyWindow | openWindow => exact .inr (.inr (.inl rfl))
  | abandon => exact .inr (.inr (.inr rfl))

theorem TxMove.wire_writer (m : TxMove p i e e') (h : e'.cur ≠ e.cur ∨ e'.wire ≠ e.wire) :
    (∃ b g, i = .enq b g) ∨ i = .tick ∨ i = .prepare := by
  cases m with
  | keep | configure | release | abandon => simp at h
  | append | startSimple | request | deny => exact .inl ⟨_, _, rfl⟩
  | dataBit | stopBit | goIdle | nextByte => exact .inr (.inl rfl)
  | emptyWindow | openWindow => exact .inr (.inr rfl)

theorem TxMove.line_writer (m : TxMove p i e e') (h : e'.line ≠ e.line) :
    (∃ b g, i = .enq b g) ∨ i = .tick ∨ i = .prepare ∨ (∃ baud pin, i = .beginTx baud pin) ∨ i = .endTx := by
  cases m with
  | keep => simp at h
  | append | startSimple | request | deny => exact .inl ⟨_, _, rfl⟩
  | dataBit | stopBit | goIdle | nextByte => exact .inr (.inl rfl)
  | emptyWindow | openWindow => exact .inr (.inr (.inl rfl))
  | configure => exact .inr (.inr (.inr (.inl ⟨_, _, rfl⟩)))
  | release | abandon => exact .inr (.inr (.inr (.inr rfl)))

end

/-! ### The writers of the parser engine's registers -/

section
variable {p : Params} {e e' : ParserEngine}

theorem ParserMove.pstate_writer (m : ParserMove p i e e') (h : e'.pstate ≠ e.pstate) :
    i = .startread ∨ i = .pstop ∨ i = .timeout ∨ ∃ byte, i = .rx byte := by
  cases m with
  | keep | stopread | regl | unregl => exact absurd rfl h
  | startread => exact .inl rfl
  | pstop => exact .inr (.inl rfl)
  | timeout => exact .inr (.inr (.inl rfl))
  | goto | newGroup | labelByte | valueByte | store => exact .inr (.inr (.inr ⟨_, rfl⟩))

theorem ParserMove.stopReq_writer (m : ParserMove p i e e') (h : e'.stopReq ≠ e.stopReq) :
    i = .startread ∨ i = .stopread ∨ i = .pstop := by
  cases m with
  | startread => exact .inl rfl
  | stopread => exact .inr (.inl rfl)
  | pstop => exact .inr (.inr rfl)
  | keep | regl | unregl | timeout | goto | newGroup | labelByte | valueByte | store => exact absurd rfl h

theorem ParserMove.listener_writer (m : ParserMove p i e e') (h : e'.listener ≠ e.listener) : i = .regl ∨ i = .unregl := by
  cases m with
  | regl => exact .inl rfl
  | unregl => exact .inr rfl
  | keep | startread | stopread | pstop | timeout | goto | newGroup | labelByte | valueByte | store => exact absurd rfl h

theorem ParserMove.lablen_writer (m : ParserMove p i e e') (h : e'.lablen ≠ e.lablen) :
    (e.pstate = .groups ∨ e.pstate = .label) ∧ ∃ byte, i = .rx byte := by
  cases m with
  | newGroup groups => exact ⟨.inl groups, _, rfl⟩
  | labelByte label => exact ⟨.inr label, _, rfl⟩
  | keep | startread | stopread | regl | unregl | pstop | timeout | goto | valueByte | store => exact absurd rfl h

theorem ParserMove.vallen_writer (m : ParserMove p i e e') (h : e'.vallen ≠ e.vallen) :
    (e.pstate = .groups ∨ e.pstate = .value) ∧ ∃ byte, i = .rx byte := by
  cases m with
  | newGroup groups => exact ⟨.inl groups, _, rfl⟩
  | valueByte value => exact ⟨.inr value, _, rfl⟩
  | keep | startread | stopread | regl | unregl | pstop | timeout | goto | labelByte | store => exact absurd rfl h

theorem ParserMove.lab_writer (m : ParserMove p i e e') (h : e'.lab ≠ e.lab) : e.pstate = .label ∧ ∃ byte, i = .rx byte := by
  cases m with
  | labelByte label => exact ⟨label, _, rfl⟩
  | keep | startread | stopread | regl | unregl | pstop | timeout | goto | newGroup | valueByte | store => exact absurd rfl h

theorem ParserMove.val_writer (m : ParserMove p i e e') (h : e'.val ≠ e.val) : e.pstate = .value ∧ ∃ byte, i = .rx byte := by
  cases m with
  | valueByte value => exact ⟨value, _, rfl⟩
  | keep | startread | stopread | regl | unregl | pstop | timeout | goto | newGroup | labelByte | store => exact absurd rfl h

theorem ParserMove.store_writer (m : ParserMove p i e e') (h : e'.store ≠ e.store) :
    e.pstate = .trailer ∧ ∃ byte, i = .rx byte := by
  cases m with
  | store trailer => exact ⟨trailer, _, rfl⟩
  | keep | startread | stopread | regl | unregl | pstop | timeout | goto | newGroup | labelByte | valueByte => exact absurd rfl h

end

/-- Settles O51: the registers' writers are those of the engines' moves, the others' those of the outputs. -/
theorem eachRegisterHasItsWriters : Obligations.EachRegisterHasItsWriters := by
  intro i s t h
  have tx := exec_txMove h
  have ps := exec_parserMove h
  have outputs := exec_outputs h
  exact ⟨tx.configuration_eq, tx.begun_writer, tx.queue_cases,
    fun busy => tx.transmission_writer (.inl busy), fun timerRun => tx.transmission_writer (.inr (.inl timerRun)),
    fun cursor => tx.transmission_writer (.inr (.inr (.inl cursor))), fun gs => tx.transmission_writer (.inr (.inr (.inr gs))),
    fun cur => tx.wire_writer (.inl cur), fun wire => tx.wire_writer (.inr wire), tx.line_writer, outputs.txResult,
    ps.pstate_writer, ps.stopReq_writer, ps.listener_writer, ps.lablen_writer, ps.vallen_writer, ps.lab_writer, ps.val_writer,
    ps.store_writer, outputs.pResult, outputs.fault, outputs.statusLog.writer_of_ne, outputs.errLog.writer_of_ne,
    outputs.notifyLog.writer_of_ne⟩

/-! ### The engine bit -/

/-- Notifications are the parser engine's: only RX writes them (44_field_registry R212). -/
theorem exec_notifyLog_of_txEvent (h : exec i s = .next t) (hbit : i.opcode.getLsbD 4 = false) : t.notifyLog = s.notifyLog := by
  by_contra hne
  obtain ⟨byte, rfl⟩ := (exec_outputs h).notifyLog.writer_of_ne hne
  simp [Instr.opcode] at hbit

/-- The scheduler hears of ENQ, TICK and PREPARE alone (30_encoding R90). -/
theorem exec_schedLog_of_parserEvent (h : exec i s = .next t) (hbit : i.opcode.getLsbD 4 = true) : t.schedLog = s.schedLog := by
  by_contra hne
  obtain ⟨b, g, rfl⟩ | rfl | rfl := (exec_outputs h).schedLog.writer_of_ne hne <;> simp [Instr.opcode] at hbit

/-- Only FLUSH and END are ever held (60_exceptions R244). -/
theorem exec_held_of_parserEvent (h : exec i s = .next t) (hbit : i.opcode.getLsbD 4 = true) : t.held = s.held := by
  by_contra hne
  obtain ⟨rfl | rfl, -⟩ := (exec_outputs h).held hne <;> simp [Instr.opcode] at hbit

/-- Settles O52: the other engine passes through the event, and the writers of the rest are this engine's events. -/
theorem engineBitBoundsTheEffect : Obligations.EngineBitBoundsTheEffect := by
  intro i s t h
  rw [encode_getLsbD_31]
  refine ⟨fun hbit => ?_, fun hbit => ?_⟩
  · obtain ⟨hps, hresult⟩ := exec_ps_of_txEvent h hbit
    exact ⟨hps, hresult, exec_notifyLog_of_txEvent h hbit⟩
  · obtain ⟨htx, hresult⟩ := exec_tx_of_parserEvent h hbit
    exact ⟨htx, hresult, exec_schedLog_of_parserEvent h hbit, exec_held_of_parserEvent h hbit⟩

end Sys2Proof.Machine
end

section
/-! PROOF. A step runs the event its presented word decodes to (O8; 20_memory R73, 60_exceptions R244). -/

namespace Sys2Proof.Machine

variable {s : State} {w : Word} {rest : List Word} {i : Instr}

/-- A word that decodes to an event of the variant is that event at the port (30_encoding R88). -/
theorem decodeFor_of_wellFormed {v : Variant} (hd : decode w = .ok i) (hwf : i.wellFormed v = true) : decodeFor v w = .ok i := by
  simp [decodeFor, hd, hwf]

/-- The port decides unless a held command is due (60_exceptions R244). -/
theorem fetch_eq_fetchPort (h : s.held = none ∨ s.tx.busy = true) : fetch s = fetchPort s := by
  unfold fetch
  split
  · rename_i c hc
    have busy : s.tx.busy = true := by simpa [hc] using h
    simp [busy]
  · rfl

/-- The step that takes the word `w` off the port is the event of `w` in the state without it (20_memory R73). -/
theorem step_of_takeWord (hport : s.held = none ∨ s.tx.busy = true) (hw : takeWord s.held.isSome s.port = some (w, rest))
    (hd : decode w = .ok i) (hwf : i.wellFormed s.params.variant = true) : step s = exec i { s with port := rest } := by
  simp [step, fetch_eq_fetchPort hport, fetchPort, hw, decodeFor_of_wellFormed hd hwf]

/-- Settles O8: with nothing held the first word is taken, with a command held the first that is not the waiting foreground's. -/
theorem stepRunsThePresentedEvent : Obligations.StepRunsThePresentedEvent := by
  refine ⟨fun s w rest i hheld hport hd hwf => ?_, fun s c before w rest i hheld hbusy hport hbefore hw hd hwf => ?_⟩
  · refine step_of_takeWord (.inl hheld) ?_ hd hwf
    rw [hheld, hport]
    exact takeWord_false w rest
  · have hfore : ∀ x ∈ before, foregroundWord x = true := fun x hx => (foregroundWord_eq_true_iff x).2 (hbefore x hx)
    have hnot : foregroundWord w = false := Bool.eq_false_iff.2 fun h => hw ((foregroundWord_eq_true_iff w).1 h)
    refine step_of_takeWord (.inr hbusy) ?_ hd hwf
    rw [hheld, hport]
    exact takeWord_append_of_foreground hfore hnot

end Sys2Proof.Machine
end

section
/-! PROOF. The ring representation refines the transmit queue (O60; 20_memory R62 to R64). -/

namespace Sys2Proof.Machine

variable {qcap : Nat} {b : Byte} {r : Ring} {t : TxEngine}

/-! ### `Pop` on the queue -/

theorem pop_of_nil (h : t.q = []) : t.pop = none := by
  simp [TxEngine.pop, h]

theorem pop_of_cons {rest : List Byte} (h : t.q = b :: rest) : t.pop = some (b, { t with q := rest }) := by
  simp [TxEngine.pop, h]

/-! ### The ring -/

@[simp] theorem Ring.queue_length (qcap : Nat) (r : Ring) : (r.queue qcap).length = r.cnt := by
  simp [Ring.queue]

theorem Ring.wf_reset (h : 1 ≤ qcap) : (Ring.reset qcap).wf qcap :=
  ⟨by simp [Ring.reset], h, Nat.zero_le qcap, by simp [Ring.reset]⟩

theorem Ring.queue_reset : (Ring.reset qcap).queue qcap = [] := rfl

/-- The ring after `Push` where there is room (20_memory R62, R64). -/
def Ring.pushed (qcap : Nat) (b : Byte) (r : Ring) : Ring :=
  { r with qmem := r.qmem.set r.wr b, wr := (r.wr + 1) % qcap, cnt := r.cnt + 1 }

theorem Ring.push_of_full (h : qcap ≤ r.cnt) : r.push qcap b = none := by
  simp only [Ring.push, Nat.not_lt.2 h, if_false]

theorem Ring.push_eq_pushed (h : r.cnt < qcap) : r.push qcap b = some (r.pushed qcap b) := by
  simp [Ring.push, Ring.pushed, h]

theorem Ring.wf.pushed (hwf : r.wf qcap) (h : r.cnt < qcap) : (r.pushed qcap b).wf qcap := by
  obtain ⟨hlen, hrd, -, hwr⟩ := hwf
  refine ⟨by simpa [Ring.pushed] using hlen, hrd, h, ?_⟩
  simp only [Ring.pushed, hwr, Nat.mod_add_mod, Nat.add_assoc]

/-- Two places of the live queue and the one behind it are different cells of QMEM. -/
theorem ring_index_ne {rd k n : Nat} (hk : k < n) (hn : n < qcap) : (rd + k) % qcap ≠ (rd + n) % qcap := by
  intro h
  have h' : k % qcap = n % qcap := Nat.ModEq.add_left_cancel' rd h
  rw [Nat.mod_eq_of_lt (hk.trans hn), Nat.mod_eq_of_lt hn] at h'
  omega

/-- `Push` writes the cell behind the live queue, which keeps its bytes (20_memory R64). -/
theorem Ring.queue_pushed (hwf : r.wf qcap) (h : r.cnt < qcap) : (r.pushed qcap b).queue qcap = r.queue qcap ++ [b] := by
  obtain ⟨hlen, hrd, -, hwr⟩ := hwf
  have hin : (r.rd + r.cnt) % qcap < r.qmem.length := hlen ▸ Nat.mod_lt _ (by omega)
  have old : ∀ k ∈ List.range r.cnt, (r.pushed qcap b).read ((r.rd + k) % qcap) = r.read ((r.rd + k) % qcap) := fun k hk => by
    have hne := ring_index_ne (rd := r.rd) (List.mem_range.1 hk) h
    simp [Ring.pushed, Ring.read, hwr, List.getElem?_set_ne hne.symm]
  have new : (r.pushed qcap b).read ((r.rd + r.cnt) % qcap) = b := by
    simp [Ring.pushed, Ring.read, hwr, hin]
  calc (r.pushed qcap b).queue qcap
      = (List.range r.cnt).map (fun k => (r.pushed qcap b).read ((r.rd + k) % qcap)) ++
          [(r.pushed qcap b).read ((r.rd + r.cnt) % qcap)] := by simp [Ring.queue, Ring.pushed, List.range_succ]
    _ = r.queue qcap ++ [b] := by rw [List.map_congr_left old, new]; rfl

/-- The ring after `Pop` of a live queue (20_memory R63, R64). -/
def Ring.popped (qcap : Nat) (r : Ring) : Ring := { r with rd := (r.rd + 1) % qcap, cnt := r.cnt - 1 }

theorem Ring.pop_of_empty (h : r.cnt = 0) : r.pop qcap = none := by
  simp [Ring.pop, h]

theorem Ring.pop_of_live (h : 0 < r.cnt) : r.pop qcap = some (r.read r.rd, r.popped qcap) := by
  simp [Ring.pop, Ring.popped, h]

theorem Ring.wf.popped (hwf : r.wf qcap) (h : 0 < r.cnt) : (r.popped qcap).wf qcap := by
  obtain ⟨hlen, hrd, hcnt, hwr⟩ := hwf
  have hnext : r.rd + r.cnt = r.rd + 1 + (r.cnt - 1) := by omega
  refine ⟨hlen, Nat.mod_lt _ (by omega), (Nat.sub_le ..).trans hcnt, ?_⟩
  simp only [Ring.popped, hwr, Nat.mod_add_mod, hnext]

/-- `Pop` reads the head of the live queue and leaves its tail (20_memory R63, R64). -/
theorem Ring.queue_eq_cons_popped (hwf : r.wf qcap) (h : 0 < r.cnt) : r.queue qcap = r.read r.rd :: (r.popped qcap).queue qcap := by
  obtain ⟨-, hrd, -, -⟩ := hwf
  obtain ⟨n, hn⟩ := Nat.exists_eq_succ_of_ne_zero h.ne'
  have head : r.rd % qcap = r.rd := Nat.mod_eq_of_lt hrd
  have tail : ∀ k, (r.rd + (k + 1)) % qcap = ((r.rd + 1) % qcap + k) % qcap := fun k => by
    rw [Nat.mod_add_mod, Nat.add_assoc, Nat.add_comm 1 k]
  have live : List.range r.cnt = 0 :: (List.range (r.cnt - 1)).map Nat.succ := by
    rw [hn, List.range_succ_eq_map, Nat.succ_sub_one]
  simp only [Ring.queue, live, List.map_cons, List.map_map, Nat.add_zero, head]
  refine congrArg (r.read r.rd :: ·) (List.map_congr_left fun k _ => ?_)
  exact congrArg r.read (tail k)

/-- `Push` on the ring and on the queue it stands for (20_memory R62). -/
theorem Ring.push_refines (hwf : r.wf qcap) (hq : t.q = r.queue qcap) :
    (t.push qcap b = none ∧ r.push qcap b = none) ∨
    (∃ r' t', t.push qcap b = some t' ∧ r.push qcap b = some r' ∧ r'.wf qcap ∧ t'.q = r'.queue qcap) := by
  have hlen : t.q.length = r.cnt := by rw [hq, Ring.queue_length]
  by_cases h : r.cnt < qcap
  case pos =>
    refine .inr ⟨r.pushed qcap b, t.append b, push_of_room (hlen ▸ h), Ring.push_eq_pushed h, hwf.pushed h, ?_⟩
    rw [TxEngine.append_q, hq, Ring.queue_pushed hwf h]
  case neg =>
    have full : qcap ≤ r.cnt := Nat.not_lt.1 h
    exact .inl ⟨push_eq_none.2 (hlen ▸ full), Ring.push_of_full full⟩

/-- `Pop` on the ring and on the queue it stands for (20_memory R63). -/
theorem Ring.pop_refines (hwf : r.wf qcap) (hq : t.q = r.queue qcap) :
    (t.pop = none ∧ r.pop qcap = none) ∨
    (∃ b r' t', t.pop = some (b, t') ∧ r.pop qcap = some (b, r') ∧ r'.wf qcap ∧ t'.q = r'.queue qcap) := by
  obtain h | h := Nat.eq_zero_or_pos r.cnt
  · have empty : t.q = [] := List.eq_nil_of_length_eq_zero (by rw [hq, Ring.queue_length, h])
    exact .inl ⟨pop_of_nil empty, Ring.pop_of_empty h⟩
  · have live := hq.trans (Ring.queue_eq_cons_popped hwf h)
    exact .inr ⟨r.read r.rd, r.popped qcap, _, pop_of_cons live, Ring.pop_of_live h, hwf.popped h, rfl⟩

/-- Settles O60: a push writes the cell behind the live queue, a pop moves the read index past its head. -/
theorem ringRefinesTheQueue : Obligations.RingRefinesTheQueue := by
  intro qcap hqcap
  exact ⟨⟨Ring.wf_reset hqcap, Ring.queue_reset⟩, fun _ _ _ => Ring.push_refines, fun _ _ => Ring.pop_refines⟩

end Sys2Proof.Machine
end

section
/-! PROOF. Bytes enqueued on an idle engine are all sent, in order (O27, O28; 20_memory R70, 40_tx_host_commands R108,
41_tx_bit_engine R126, R127, 42_tx_timeslot R149). A run is cut into its ENQs, the PREPARE of COOP, and ten TICKs for each byte; one
lemma says what each part leaves. The actions recorded in `schedLog` are the model's (log entry 10). -/

namespace Sys2Proof.Machine

variable {s : State}

/-! ### Runs -/

theorem execAll_nil (s : State) : execAll [] s = .next s := rfl

/-- A run whose first event and whose rest answer. -/
theorem execAll_cons_of_next {i : Instr} {is : List Instr} {t u : State} (h : exec i s = .next t) (h' : execAll is t = .next u) :
    execAll (i :: is) s = .next u := by
  simp only [execAll, h, h']

/-- A run whose two parts answer. -/
theorem execAll_append_of_next {is js : List Instr} {t u : State} (h : execAll is s = .next t) (h' : execAll js t = .next u) :
    execAll (is ++ js) s = .next u := by
  induction is generalizing s with
  | nil =>
    rw [execAll_nil, Host.Outcome.next.injEq] at h
    rw [List.nil_append, h, h']
  | cons i is ih =>
    cases he : exec i s with
    | next v => exact execAll_cons_of_next he (ih (by simpa only [execAll, he] using h))
    | fault r => simp [execAll, he] at h
    | refused r => simp [execAll, he] at h

theorem ticks_succ (n : Nat) : ticks (n + 1) = .tick :: ticks n := rfl

theorem ticks_add (m n : Nat) : ticks (m + n) = ticks m ++ ticks n := List.replicate_add m n _

/-! ### One TICK -/

/-- The action an event returns is recorded in COOP (30_encoding R90). -/
theorem State.answer_eq (o : SchedOut) (s : State) :
    s.answer o = { s with schedLog := if s.params.variant = .coop then s.schedLog ++ [o] else s.schedLog } := by
  unfold State.answer State.isSimple State.emit
  cases s.params.variant <;> rfl

/-- TICK at cursor 0 to 7 drives a data bit (41_tx_bit_engine R121, 42_tx_timeslot R144). -/
theorem exec_tick_dataBit (hf : s.fault = none) (ht : s.tx.timerRun = true) (hc : s.tx.cursor ≤ 7#4) :
    exec .tick s = .next { s.answer .continue_ with tx := s.tx.dataBit } :=
  execTick_next.2 ⟨hf, ht, (tickCases_next hf).2 (.inl ⟨hc, rfl⟩)⟩

/-- TICK at cursor 8 drives the stop bit (41_tx_bit_engine R122, 42_tx_timeslot R144). -/
theorem exec_tick_stopBit (hf : s.fault = none) (ht : s.tx.timerRun = true) (hc : s.tx.cursor = 8#4) :
    exec .tick s = .next { s.answer .continue_ with tx := s.tx.stopBit } :=
  execTick_next.2 ⟨hf, ht, (tickCases_next hf).2 (.inr (.inl ⟨hc, rfl⟩))⟩

/-- TICK at cursor 9 with an empty queue goes idle (41_tx_bit_engine R124, 42_tx_timeslot R146). -/
theorem exec_tick_goIdle (hf : s.fault = none) (ht : s.tx.timerRun = true) (hc : s.tx.cursor = 9#4) (hq : s.tx.q = []) :
    exec .tick s = .next { s.answer .end_ with tx := s.tx.goIdle (!s.isSimple) } :=
  execTick_next.2 ⟨hf, ht, (tickCases_next hf).2 (.inr (.inr (.inl ⟨hc, hq, rfl⟩)))⟩

/-- TICK at cursor 9 with a byte queued starts it (41_tx_bit_engine R123, 42_tx_timeslot R145). -/
theorem exec_tick_nextByte {b : Byte} {rest : List Byte} (hf : s.fault = none) (ht : s.tx.timerRun = true)
    (hc : s.tx.cursor = 9#4) (hq : s.tx.q = b :: rest) :
    exec .tick s = .next { s.answer (.extend s.tx.slotUs) with
      tx := { s.tx with q := rest, cur := b, cursor := 0#4, line := false, wire := s.tx.wire ++ [false] } } := by
  have queued : s.tx.q ≠ [] := by simp [hq]
  rw [← startByte_of_cons hq]
  exact execTick_next.2 ⟨hf, ht, (tickCases_next hf).2 (.inr (.inr (.inr (.inl ⟨hc, queued, rfl⟩))))⟩

/-! ### Ten TICKs -/

/-- Data bit `n` of a byte is level `n + 1` on the wire (41_tx_bit_engine R126). -/
theorem byteLevels_drop_data (b : Byte) {n : Nat} (h : n ≤ 7) :
    (byteLevels b).drop (n + 1) = b.getLsbD n :: (byteLevels b).drop (n + 2) := by
  interval_cases n <;> rfl

/-- TICK at cursor 0 to 8 drives the next level of the byte in flight, and at 8 that is the stop bit's (41_tx_bit_engine R121,
R122). -/
theorem exec_tick_level (hf : s.fault = none) (ht : s.tx.timerRun = true) (hc : s.tx.cursor.toNat ≤ 8) :
    ∃ l, (byteLevels s.tx.cur).drop (s.tx.cursor.toNat + 1) = l :: (byteLevels s.tx.cur).drop (s.tx.cursor.toNat + 2) ∧
      (s.tx.cursor.toNat = 8 → l = true) ∧
      exec .tick s = .next { s with
        tx := { s.tx with line := l, wire := s.tx.wire ++ [l], cursor := s.tx.cursor + 1#4 }
        schedLog := if s.params.variant = .coop then s.schedLog ++ [.continue_] else s.schedLog } := by
  obtain h | h : s.tx.cursor.toNat ≤ 7 ∨ s.tx.cursor.toNat = 8 := by omega
  · refine ⟨_, byteLevels_drop_data s.tx.cur h, by omega, ?_⟩
    rw [exec_tick_dataBit hf ht (by bv_omega), State.answer_eq]
    rfl
  · have h8 : s.tx.cursor = 8#4 := by bv_omega
    refine ⟨true, by rw [h]; rfl, fun _ => rfl, ?_⟩
    rw [exec_tick_stopBit hf ht h8, State.answer_eq, h8]
    rfl

/-- The TICKs up to the stop bit drive the levels that are left of the byte in flight (41_tx_bit_engine R126). -/
theorem execAll_ticks_to_stopBit {n : Nat} (hf : s.fault = none) (ht : s.tx.timerRun = true) (hc : s.tx.cursor.toNat + n = 9)
    (hl : s.tx.cursor.toNat = 9 → s.tx.line = true) :
    execAll (ticks n) s = .next { s with
      tx := { s.tx with
        line := true, cursor := 9#4, wire := s.tx.wire ++ (byteLevels s.tx.cur).drop (s.tx.cursor.toNat + 1) }
      schedLog := if s.params.variant = .coop then s.schedLog ++ List.replicate n .continue_ else s.schedLog } := by
  induction n generalizing s with
  | zero =>
    have h9 : s.tx.cursor = 9#4 := by bv_omega
    have high : s.tx.line = true := hl hc
    obtain ⟨params, tx, _⟩ := s
    obtain ⟨_⟩ := tx
    simp_all [ticks, execAll, byteLevels]
  | succ n ih =>
    obtain ⟨l, hlevel, hstop, htick⟩ := exec_tick_level hf ht (by omega)
    have next : (s.tx.cursor + 1#4).toNat = s.tx.cursor.toNat + 1 := by bv_omega
    refine (execAll_cons_of_next htick (ih hf ht (by simp only [next]; omega) fun h => hstop ?_)).trans ?_
    · simp only [next] at h
      omega
    cases hv : s.params.variant <;> simp [next, hlevel, List.replicate_succ]

/-- The nine TICKs after a start bit drive the rest of the byte (41_tx_bit_engine R126). -/
theorem execAll_ticks_nine (hf : s.fault = none) (ht : s.tx.timerRun = true) (hc : s.tx.cursor = 0#4) :
    execAll (ticks 9) s = .next { s with
      tx := { s.tx with line := true, cursor := 9#4, wire := s.tx.wire ++ (byteLevels s.tx.cur).tail }
      schedLog := if s.params.variant = .coop then s.schedLog ++ List.replicate 9 .continue_ else s.schedLog } := by
  rw [execAll_ticks_to_stopBit hf ht (by simp [hc]) (by simp [hc]), hc]
  rfl

/-- The ten TICKs of a byte with another one behind it (41_tx_bit_engine R123, R127). -/
theorem execAll_ticks_ten_of_cons {b : Byte} {rest : List Byte} (hf : s.fault = none) (ht : s.tx.timerRun = true)
    (hc : s.tx.cursor = 0#4) (hq : s.tx.q = b :: rest) :
    execAll (ticks 10) s = .next { s with
      tx := { s.tx with
        q := rest, cur := b, cursor := 0#4, line := false, wire := s.tx.wire ++ (byteLevels s.tx.cur).tail ++ [false] }
      schedLog := if s.params.variant = .coop then s.schedLog ++ List.replicate 9 .continue_ ++ [.extend s.tx.slotUs]
        else s.schedLog } := by
  refine (execAll_append_of_next (js := ticks 1) (execAll_ticks_nine hf ht hc)
    (execAll_cons_of_next (exec_tick_nextByte hf ht rfl hq) (execAll_nil _))).trans ?_
  rw [State.answer_eq]
  cases hv : s.params.variant <;> simp

/-- The ten TICKs of the last byte (41_tx_bit_engine R124, R127). -/
theorem execAll_ticks_ten_of_nil (hf : s.fault = none) (ht : s.tx.timerRun = true) (hc : s.tx.cursor = 0#4) (hq : s.tx.q = []) :
    execAll (ticks 10) s = .next { s with
      tx := { s.tx with
        cursor := 0#4, line := true, timerRun := false, busy := false
        gs := if s.params.variant = .coop then .none else s.tx.gs
        wire := s.tx.wire ++ (byteLevels s.tx.cur).tail }
      schedLog := if s.params.variant = .coop then s.schedLog ++ List.replicate 9 .continue_ ++ [.end_] else s.schedLog } := by
  refine (execAll_append_of_next (js := ticks 1) (execAll_ticks_nine hf ht hc)
    (execAll_cons_of_next (exec_tick_goIdle hf ht rfl hq) (execAll_nil _))).trans ?_
  rw [State.answer_eq]
  cases hv : s.params.variant <;> simp [TxEngine.goIdle, State.isSimple, hv]

/-- Ten TICKs for the byte in flight and for every byte queued send them all and leave the engine idle (41_tx_bit_engine R127), in
COOP with every extension granted (42_tx_timeslot R149, log entry 15). -/
theorem execAll_ticks_of_queue {q : List Byte} (hf : s.fault = none) (ht : s.tx.timerRun = true) (hc : s.tx.cursor = 0#4)
    (hq : s.tx.q = q) :
    execAll (ticks (10 * (q.length + 1))) s = .next { s with
      tx := { s.tx with
        q := []
        cur := q.getLastD s.tx.cur
        cursor := 0#4
        line := true
        timerRun := false
        busy := false
        gs := if s.params.variant = .coop then .none else s.tx.gs
        wire := s.tx.wire ++ (byteLevels s.tx.cur).tail ++ (q.map byteLevels).flatten }
      schedLog :=
        if s.params.variant = .coop then
          s.schedLog ++ (q.map fun _ => List.replicate 9 .continue_ ++ [.extend s.tx.slotUs]).flatten ++
            (List.replicate 9 .continue_ ++ [.end_])
        else s.schedLog } := by
  induction q generalizing s with
  | nil =>
    rw [List.length_nil, execAll_ticks_ten_of_nil hf ht hc hq]
    cases hv : s.params.variant <;> simp [hq]
  | cons b rest ih =>
    have tens : 10 * ((b :: rest).length + 1) = 10 + 10 * (rest.length + 1) := by rw [List.length_cons]; omega
    rw [tens, ticks_add]
    refine (execAll_append_of_next (execAll_ticks_ten_of_cons hf ht hc hq) (ih hf ht rfl rfl)).trans ?_
    cases hv : s.params.variant <;> simp [byteLevels, List.getLast?_cons]

/-! ### The ENQs -/

theorem send_cons (g : Bool) (b : Byte) (bytes : List Byte) : send g (b :: bytes) = .enq b g :: send g bytes := rfl

/-- ENQ with room on a busy engine queues the byte (40_tx_host_commands R102). -/
theorem exec_enq_of_busy {b : Byte} {g : Bool} (hf : s.fault = none) (hb : s.tx.begun = true) (hroom : s.tx.q.length < s.params.qcap)
    (hbusy : s.tx.busy = true) : exec (.enq b g) s = .next { s with tx := s.tx.append b, txResult := .ok } :=
  execEnq_next.2 ⟨hf, hb, .inr ⟨hroom, .inl ⟨hbusy, rfl⟩⟩⟩

/-- ENQ on an idle SIMPLE engine with an empty queue starts its byte (40_tx_host_commands R102). -/
theorem exec_enq_of_simple {b : Byte} {g : Bool} (hf : s.fault = none) (hb : s.tx.begun = true) (hcap : 1 ≤ s.params.qcap)
    (hidle : s.tx.busy = false) (hq : s.tx.q = []) (hv : s.params.variant = .simple) :
    exec (.enq b g) s = .next { s with
      tx := { s.tx with q := [], cur := b, cursor := 0#4, line := false, wire := s.tx.wire ++ [false],
                        timerRun := true, busy := true }
      txResult := .ok } := by
  have hroom : s.tx.q.length < s.params.qcap := hq ▸ hcap
  have hstart : (s.tx.append b).startSimple = { s.tx with
      q := [], cur := b, cursor := 0#4, line := false, wire := s.tx.wire ++ [false], timerRun := true, busy := true } := by
    rw [TxEngine.startSimple, startByte_append_of_nil hq]
  rw [← hstart]
  exact execEnq_next.2 ⟨hf, hb, .inr ⟨hroom, .inr ⟨hidle, enqFromIdle_next.2 (.inl ⟨hv, rfl⟩)⟩⟩⟩

/-- ENQ with room on an idle COOP engine asks for a window, which is accepted (40_tx_host_commands R102, 42_tx_timeslot R141). -/
theorem exec_enq_of_coop {b : Byte} (hf : s.fault = none) (hb : s.tx.begun = true) (hroom : s.tx.q.length < s.params.qcap)
    (hidle : s.tx.busy = false) (hv : s.params.variant = .coop) :
    exec (.enq b true) s = .next { s.emit (.request s.tx.slotUs) with
      tx := { s.tx.append b with busy := true, gs := .requested }, txResult := .ok } :=
  execEnq_next.2 ⟨hf, hb, .inr ⟨hroom, .inr ⟨hidle, enqFromIdle_next.2 (.inr (.inl ⟨hv, rfl, rfl⟩))⟩⟩⟩

/-- Bytes enqueued on a busy engine with room for them all are queued in order (20_memory R70). -/
theorem execAll_send_of_busy {g : Bool} {bytes : List Byte} (hf : s.fault = none) (hb : s.tx.begun = true) (hbusy : s.tx.busy = true)
    (hroom : s.tx.q.length + bytes.length ≤ s.params.qcap) (hok : s.txResult = .ok) :
    execAll (send g bytes) s = .next { s with tx := { s.tx with q := s.tx.q ++ bytes } } := by
  induction bytes generalizing s with
  | nil => simp [send, execAll]
  | cons b bytes ih =>
    rw [List.length_cons] at hroom
    have hrest : (s.tx.append b).q.length + bytes.length ≤ s.params.qcap := by simp; omega
    rw [send_cons]
    refine (execAll_cons_of_next (exec_enq_of_busy hf hb (by omega) hbusy) (ih hf hb hbusy hrest rfl)).trans ?_
    simp [TxEngine.append, hok]

/-! ### PREPARE -/

/-- PREPARE of a requested window with a byte queued starts it (42_tx_timeslot R143). -/
theorem exec_prepare_of_queued {b : Byte} {rest : List Byte} (hf : s.fault = none) (hv : s.params.variant = .coop)
    (hg : s.tx.gs = .requested) (hq : s.tx.q = b :: rest) :
    exec .prepare s = .next { s.emit .continue_ with
      tx := { s.tx with q := rest, cur := b, cursor := 0#4, line := false, wire := s.tx.wire ++ [false],
                        gs := .active, timerRun := true } } := by
  have queued : s.tx.q ≠ [] := by simp [hq]
  have hopen : s.tx.openWindow = { s.tx with
      q := rest, cur := b, cursor := 0#4, line := false, wire := s.tx.wire ++ [false], gs := .active, timerRun := true } := by
    rw [TxEngine.openWindow, startByte_of_cons hq]
  rw [← hopen]
  exact execPrepare_next.2 ⟨hf, hv, .inr (.inl ⟨hg, queued, rfl⟩)⟩

/-! ### The whole run -/

/-- Settles O27: the first byte starts at once, so the others find the engine busy and the whole capacity free. -/
theorem simpleEngineSendsInOrder : Obligations.SimpleEngineSendsInOrder := by
  intro s g bytes hf hv hinv hb hidle hcap hne hlen
  obtain ⟨b, rest, rfl⟩ := List.exists_cons_of_ne_nil hne
  have hq : s.tx.q = [] := (hinv.i5 hv).2 hidle
  have hroom : ([] : List Byte).length + rest.length ≤ s.params.qcap := by simpa using hlen
  refine ⟨_, execAll_cons_of_next (exec_enq_of_simple hf hb hcap hidle hq hv)
    (execAll_append_of_next (execAll_send_of_busy hf hb rfl hroom rfl) (execAll_ticks_of_queue hf rfl rfl rfl)), ?_⟩
  simp [byteLevels]

/-- Settles O28: the first ENQ makes the engine busy, so the others are queued behind it; the window starts the first byte. -/
theorem coopEngineSendsInOrder : Obligations.CoopEngineSendsInOrder := by
  intro s bytes hf hv _ hb hidle hq hne hlen
  obtain ⟨b, rest, rfl⟩ := List.exists_cons_of_ne_nil hne
  rw [List.length_cons] at hlen
  have hfirst : s.tx.q.length < s.params.qcap := by simp [hq]; omega
  have hroom : (s.tx.append b).q.length + rest.length ≤ s.params.qcap := by simp [hq]; omega
  have hqueue : (s.tx.append b).q ++ rest = b :: rest := by simp [hq]
  refine ⟨_, execAll_cons_of_next (exec_enq_of_coop hf hb hfirst hidle hv)
    (execAll_append_of_next (execAll_send_of_busy hf hb rfl hroom rfl)
      (execAll_cons_of_next (exec_prepare_of_queued hf hv rfl hqueue) (execAll_ticks_of_queue hf rfl rfl rfl))), ?_⟩
  simp [byteLevels, hv]

end Sys2Proof.Machine
end

section
/-! PROOF. Event words (O1, O2, O3, O5; 30_encoding R80 to R87, R94, R95). An event's word carries its opcode and its operands at
their places, and the fields of a format are all 32 bits, so decoder and encoder are inverse on legal words. The rows of the opcode map and
the stored words follow from that. -/

namespace Sys2Proof

variable {w : Word} {i j : Instr}

/-! ### Fields of a word -/

/-- A word is its opcode field above its low 27 bits (30_encoding R80). -/
theorem word_toNat_split (w : Word) : w.toNat = (opField w).toNat * 2 ^ 27 + (w.extractLsb' 0 27).toNat := by
  have := w.isLt
  rw [opField, extract_toNat, extract_toNat]
  omega

/-- The word with an event's opcode and its operand bits below is the event's word (30_encoding R80). -/
theorem encode_eq_of_fields (hop : opField w = i.opcode) (hbits : (w.extractLsb' 0 27).toNat = i.operandBits.toNat) :
    encode i = w := by
  have hsplit := word_toNat_split w
  apply BitVec.eq_of_toNat_eq
  rw [encode_toNat, ← hop, ← hbits, ← hsplit, Nat.mod_eq_of_lt w.isLt]

/-- A mask of a word's high bits keeps the number above them (30_encoding R85). -/
theorem and_highMask_eq_iff (w p : Word) (k : Nat) (hp : p.toNat % 2 ^ k = 0) :
    w &&& (BitVec.allOnes 32 <<< k) = p ↔ w.toNat / 2 ^ k = p.toNat / 2 ^ k := by
  have hand : w &&& (BitVec.allOnes 32 <<< k) = w >>> k <<< k := by
    ext n hn
    by_cases hnk : n < k
    · simp [hnk]
    · simp [hnk, hn, Nat.add_sub_cancel' (Nat.le_of_not_lt hnk), -BitVec.reduceAllOnes]
  have hlt : w.toNat / 2 ^ k * 2 ^ k < 2 ^ 32 := Nat.lt_of_le_of_lt (Nat.div_mul_le_self _ _) w.isLt
  have hdvd : p.toNat / 2 ^ k * 2 ^ k = p.toNat := Nat.div_mul_cancel (Nat.dvd_of_mod_eq_zero hp)
  rw [hand, ← BitVec.toNat_inj, BitVec.toNat_shiftLeft, BitVec.toNat_ushiftRight, Nat.shiftLeft_eq, Nat.shiftRight_eq_div_pow,
    Nat.mod_eq_of_lt hlt]
  constructor
  · intro h
    rw [← h, Nat.mul_div_cancel _ (Nat.two_pow_pos k)]
  · intro h
    rw [h, hdvd]

/-! ### Decoding a word that was encoded -/

theorem decode_encode_beginTx (baud : Baud) (pin : Pin) : decode (encode (.beginTx baud pin)) = .ok (.beginTx baud pin) := by
  have hop : opField (encode (.beginTx baud pin)) = 0x01#5 := Machine.opField_encode _
  have hpinlt := pin.isLt
  have hbaudlt := baud.isLt
  have hpin : pinField (encode (.beginTx baud pin)) = pin := by
    apply BitVec.eq_of_toNat_eq
    rw [pinField, extract_toNat, encode_beginTx_toNat]
    omega
  have hbaud : baudField (encode (.beginTx baud pin)) = baud := by
    apply BitVec.eq_of_toNat_eq
    rw [baudField, extract_toNat, encode_beginTx_toNat]
    omega
  simp [decode, hop, hpin, hbaud]

theorem decode_encode_enq (byte : Byte) (g : Bool) : decode (encode (.enq byte g)) = .ok (.enq byte g) := by
  have hop : opField (encode (.enq byte g)) = 0x02#5 := Machine.opField_encode _
  have hbytelt := byte.isLt
  have hglt := g.toNat_lt
  have hzero : (encode (.enq byte g)).extractLsb' 9 18 = 0#18 := by
    apply BitVec.eq_of_toNat_eq
    rw [extract_toNat, encode_enq_toNat, BitVec.toNat_ofNat]
    omega
  have hbyte : byteField (encode (.enq byte g)) = byte := by
    apply BitVec.eq_of_toNat_eq
    rw [byteField, extract_toNat, encode_enq_toNat]
    omega
  have hg : answerField (encode (.enq byte g)) = g := by
    have hbit : (encode (.enq byte g)).toNat / 2 ^ 8 % 2 = g.toNat := by
      rw [encode_enq_toNat]
      omega
    rw [answerField, bit_eq_decide, hbit]
    cases g <;> rfl
  simp [decode, decodeQ, hop, hzero, hbyte, hg]

theorem decode_encode_rx (byte : Byte) : decode (encode (.rx byte)) = .ok (.rx byte) := by
  have hop : opField (encode (.rx byte)) = 0x18#5 := Machine.opField_encode _
  have hbytelt := byte.isLt
  have hzero : (encode (.rx byte)).extractLsb' 8 19 = 0#19 := by
    apply BitVec.eq_of_toNat_eq
    rw [extract_toNat, encode_rx_toNat, BitVec.toNat_ofNat]
    omega
  have hbyte : byteField (encode (.rx byte)) = byte := by
    apply BitVec.eq_of_toNat_eq
    rw [byteField, extract_toNat, encode_rx_toNat]
    omega
  simp [decode, decodeY, hop, hzero, hbyte]

/-- Settles O1: the fields of an event's word are its operands; an event of format N has one word. -/
theorem decodeOfEncode : Obligations.DecodeOfEncode
  | .beginTx baud pin => decode_encode_beginTx baud pin
  | .enq byte g => decode_encode_enq byte g
  | .rx byte => decode_encode_rx byte
  | .flush => rfl
  | .endTx => rfl
  | .tick => rfl
  | .prepare => rfl
  | .startread => rfl
  | .stopread => rfl
  | .regl => rfl
  | .unregl => rfl
  | .timeout => rfl
  | .pstop => rfl

/-! ### Encoding an event that was decoded, format by format -/

/-- Format B: a word whose opcode is BEGIN's is the BEGIN of its two fields (30_encoding R84). -/
theorem encode_beginTx_fields (h : w.toNat / 2 ^ 27 = 1) : encode (.beginTx (baudField w) (pinField w)) = w := by
  apply BitVec.eq_of_toNat_eq
  rw [encode_beginTx_toNat, pinField, baudField, extract_toNat, extract_toNat]
  omega

/-- Format Q: the bits above the answer are ENQ's (30_encoding R82). -/
theorem encode_enq_fields (h : w.toNat / 2 ^ 9 = 2 ^ 19) : encode (.enq (byteField w) (answerField w)) = w := by
  apply BitVec.eq_of_toNat_eq
  have hanswer : (answerField w).toNat = w.toNat / 2 ^ 8 % 2 := Nat.toNat_testBit ..
  rw [encode_enq_toNat, hanswer, byteField, extract_toNat]
  omega

/-- Format Y: the bits above the byte are RX's (30_encoding R83). -/
theorem encode_rx_fields (h : w.toNat / 2 ^ 8 = 24 * 2 ^ 19) : encode (.rx (byteField w)) = w := by
  apply BitVec.eq_of_toNat_eq
  rw [encode_rx_toNat, byteField, extract_toNat]
  omega

/-- An opcode as the number above bit 27. -/
theorem toNat_div_of_opField {op : BitVec 5} (hop : opField w = op) : w.toNat / 2 ^ 27 = op.toNat := by
  have := w.isLt
  rw [← hop, opField, extract_toNat]
  omega

theorem encode_of_decodeN (hop : opField w = j.opcode) (hj : j.operandBits = 0#32) (h : decodeN w j = .ok i) : encode i = w := by
  unfold decodeN at h
  split at h
  · rename_i hzero
    cases h
    exact encode_eq_of_fields hop (by rw [hzero, hj]; rfl)
  · simp at h

theorem encode_of_decodeQ (hop : opField w = 0x02#5) (h : decodeQ w = .ok i) : encode i = w := by
  unfold decodeQ at h
  split at h
  · rename_i hzero
    cases h
    have hhigh : w.toNat / 2 ^ 27 = 2 := toNat_div_of_opField hop
    have hmid : w.toNat / 2 ^ 9 % 2 ^ 18 = 0 := by rw [← extract_toNat, hzero]; rfl
    exact encode_enq_fields (by omega)
  · simp at h

theorem encode_of_decodeY (hop : opField w = 0x18#5) (h : decodeY w = .ok i) : encode i = w := by
  unfold decodeY at h
  split at h
  · rename_i hzero
    cases h
    have hhigh : w.toNat / 2 ^ 27 = 24 := toNat_div_of_opField hop
    have hmid : w.toNat / 2 ^ 8 % 2 ^ 19 = 0 := by rw [← extract_toNat, hzero]; rfl
    exact encode_rx_fields (by omega)
  · simp at h

/-- Settles O2: the opcode field and the format's fields are all 32 bits of the word. -/
theorem encodeOfDecode : Obligations.EncodeOfDecode := by
  intro w i h
  unfold decode at h
  rcases ite_eq_iff.1 h with ⟨hop, h⟩ | ⟨-, h⟩
  · cases h
    exact encode_beginTx_fields (toNat_div_of_opField hop)
  rcases ite_eq_iff.1 h with ⟨hop, h⟩ | ⟨-, h⟩
  · exact encode_of_decodeQ hop h
  rcases ite_eq_iff.1 h with ⟨hop, h⟩ | ⟨-, h⟩
  · exact encode_of_decodeN (j := .flush) hop rfl h
  rcases ite_eq_iff.1 h with ⟨hop, h⟩ | ⟨-, h⟩
  · exact encode_of_decodeN (j := .endTx) hop rfl h
  rcases ite_eq_iff.1 h with ⟨hop, h⟩ | ⟨-, h⟩
  · exact encode_of_decodeN (j := .tick) hop rfl h
  rcases ite_eq_iff.1 h with ⟨hop, h⟩ | ⟨-, h⟩
  · exact encode_of_decodeN (j := .prepare) hop rfl h
  rcases ite_eq_iff.1 h with ⟨hop, h⟩ | ⟨-, h⟩
  · exact encode_of_decodeN (j := .startread) hop rfl h
  rcases ite_eq_iff.1 h with ⟨hop, h⟩ | ⟨-, h⟩
  · exact encode_of_decodeN (j := .stopread) hop rfl h
  rcases ite_eq_iff.1 h with ⟨hop, h⟩ | ⟨-, h⟩
  · exact encode_of_decodeN (j := .regl) hop rfl h
  rcases ite_eq_iff.1 h with ⟨hop, h⟩ | ⟨-, h⟩
  · exact encode_of_decodeN (j := .unregl) hop rfl h
  rcases ite_eq_iff.1 h with ⟨hop, h⟩ | ⟨-, h⟩
  · exact encode_of_decodeY hop h
  rcases ite_eq_iff.1 h with ⟨hop, h⟩ | ⟨-, h⟩
  · exact encode_of_decodeN (j := .timeout) hop rfl h
  rcases ite_eq_iff.1 h with ⟨hop, h⟩ | ⟨-, h⟩
  · exact encode_of_decodeN (j := .pstop) hop rfl h
  simp at h

/-- The words that are an event are its own word alone. -/
theorem decode_eq_ok_iff : decode w = .ok i ↔ encode i = w :=
  ⟨encodeOfDecode w i, fun h => h ▸ decodeOfEncode i⟩

/-! ### The rows of the opcode map -/

/-- Format N: the mask is the whole word (30_encoding R81). -/
theorem decode_eq_ok_iff_and_allOnes (i : Instr) : decode w = .ok i ↔ w &&& 0xFFFFFFFF#32 = encode i := by
  have hall : w &&& 0xFFFFFFFF#32 = w := BitVec.and_allOnes
  rw [hall, decode_eq_ok_iff, eq_comm]

theorem decode_beginTx_iff_and_mask :
    (∃ baud pin, decode w = .ok (.beginTx baud pin)) ↔ w &&& 0xF8000000#32 = 0x08000000#32 := by
  refine Iff.trans ?_ (and_highMask_eq_iff w 0x08000000#32 27 rfl).symm
  constructor
  · rintro ⟨baud, pin, h⟩
    have := baud.isLt
    have := pin.isLt
    rw [← decode_eq_ok_iff.1 h, encode_beginTx_toNat, BitVec.toNat_ofNat]
    omega
  · exact fun h => ⟨_, _, decode_eq_ok_iff.2 (encode_beginTx_fields h)⟩

theorem decode_enq_iff_and_mask : (∃ byte g, decode w = .ok (.enq byte g)) ↔ w &&& 0xFFFFFE00#32 = 0x10000000#32 := by
  refine Iff.trans ?_ (and_highMask_eq_iff w 0x10000000#32 9 rfl).symm
  constructor
  · rintro ⟨byte, g, h⟩
    have := byte.isLt
    have := g.toNat_lt
    rw [← decode_eq_ok_iff.1 h, encode_enq_toNat, BitVec.toNat_ofNat]
    omega
  · exact fun h => ⟨_, _, decode_eq_ok_iff.2 (encode_enq_fields h)⟩

theorem decode_rx_iff_and_mask : (∃ byte, decode w = .ok (.rx byte)) ↔ w &&& 0xFFFFFF00#32 = 0xC0000000#32 := by
  refine Iff.trans ?_ (and_highMask_eq_iff w 0xC0000000#32 8 rfl).symm
  constructor
  · rintro ⟨byte, h⟩
    have := byte.isLt
    rw [← decode_eq_ok_iff.1 h, encode_rx_toNat, BitVec.toNat_ofNat]
    omega
  · exact fun h => ⟨_, decode_eq_ok_iff.2 (encode_rx_fields h)⟩

/-- Settles O3: a mask of high bits for the formats with operands, the whole word for the others. -/
theorem wordIsEventExactlyWhenRowMatches : Obligations.WordIsEventExactlyWhenRowMatches := fun _ =>
  ⟨decode_beginTx_iff_and_mask, decode_enq_iff_and_mask, decode_eq_ok_iff_and_allOnes .flush, decode_eq_ok_iff_and_allOnes .endTx,
    decode_eq_ok_iff_and_allOnes .tick, decode_eq_ok_iff_and_allOnes .prepare, decode_eq_ok_iff_and_allOnes .startread,
    decode_eq_ok_iff_and_allOnes .stopread, decode_eq_ok_iff_and_allOnes .regl, decode_eq_ok_iff_and_allOnes .unregl,
    decode_rx_iff_and_mask, decode_eq_ok_iff_and_allOnes .timeout, decode_eq_ok_iff_and_allOnes .pstop⟩

/-- A word matches a row of the opcode map exactly when it is an event (30_encoding R85). -/
theorem matches_row_iff : (∃ r ∈ opcodeTable, w &&& r.mask = r.pattern) ↔ ∃ i, decode w = .ok i := by
  obtain ⟨hbegin, henq, hflush, hend, htick, hprepare, hstartread, hstopread, hregl, hunregl, hrx, htimeout, hpstop⟩ :=
    wordIsEventExactlyWhenRowMatches w
  simp only [opcodeTable, List.cons_append, List.nil_append, List.exists_mem_cons_iff, List.not_mem_nil, false_and, exists_false,
    or_false, ← hbegin, ← henq, ← hflush, ← hend, ← htick, ← hprepare, ← hstartread, ← hstopread, ← hregl, ← hunregl, ← hrx,
    ← htimeout, ← hpstop]
  constructor
  · rintro (⟨_, _, h⟩ | ⟨_, _, h⟩ | h | h | h | h | h | h | h | h | ⟨_, h⟩ | h | h) <;> exact ⟨_, h⟩
  · rintro ⟨i, h⟩
    -- each constructor is the event of its own row
    cases i <;> simp [h]

/-! ### Stored words -/

/-- The four stored bytes of a word, read back most significant first, are the word (30_encoding R94). -/
theorem wordOfBytes_bytes (w : Word) :
    wordOfBytes (w.extractLsb' 24 8) (w.extractLsb' 16 8) (w.extractLsb' 8 8) (w.extractLsb' 0 8) = w := by
  have := w.isLt
  apply BitVec.eq_of_toNat_eq
  simp only [wordOfBytes, BitVec.toNat_add, field_toNat _ (by omega : 8 + 24 ≤ 32), field_toNat _ (by omega : 8 + 16 ≤ 32),
    field_toNat _ (by omega : 8 + 8 ≤ 32), BitVec.toNat_setWidth, extract_toNat]
  omega

theorem decodeBytes_bytesOfWord (rest : List Byte) (h : decode w = .ok i) : decodeBytes (bytesOfWord w ++ rest) = .ok (i, rest) := by
  simp [bytesOfWord, decodeBytes, wordOfBytes_bytes, h]

/-- Settles O5: the six words evaluate to their events, and a stored word is decoded as the word it is. -/
theorem writtenOutAndStoredWordsDecode : Obligations.WrittenOutAndStoredWordsDecode :=
  ⟨rfl, rfl, rfl, rfl, rfl, rfl, rfl, fun _ rest _ h => decodeBytes_bytesOfWord rest h⟩

end Sys2Proof
end

section
/-! PROOF. Illegal words (O4; 30_encoding R85, R87, R88): which they are, and that a step refuses them. -/

namespace Sys2Proof.Machine

variable {s : State} {w : Word} {rest : List Word} {e : DecodeError}

/-- The illegal words are those no row of the opcode map matches (30_encoding R87). -/
theorem no_row_iff_error (w : Word) : (∀ r ∈ opcodeTable, w &&& r.mask ≠ r.pattern) ↔ ∃ e, decode w = .error e := by
  have hrow := matches_row_iff (w := w)
  constructor
  · intro hno
    cases hd : decode w with
    | error e => exact ⟨e, rfl⟩
    | ok i =>
      obtain ⟨r, hr, hm⟩ := hrow.2 ⟨i, hd⟩
      exact absurd hm (hno r hr)
  · rintro ⟨e, he⟩ r hr hm
    obtain ⟨i, hi⟩ := hrow.1 ⟨r, hr, hm⟩
    simp [he] at hi

/-- An illegal word of any variant is no event of this one (30_encoding R88). -/
theorem decodeFor_of_error {v : Variant} (hd : decode w = .error e) : decodeFor v w = .error e := by
  simp [decodeFor, hd]

/-- The step that finds the word `w` to take and cannot read it is refused (30_encoding R87). -/
theorem step_of_takeWord_illegal (hport : s.held = none ∨ s.tx.busy = true) (hw : takeWord s.held.isSome s.port = some (w, rest))
    (hd : decodeFor s.params.variant w = .error e) : step s = .refused (.illegalWord e) := by
  simp [step, fetch_eq_fetchPort hport, fetchPort, hw, hd]

/-- With nothing held the first word on the port is the one that decides. -/
theorem step_of_head_illegal (hheld : s.held = none) (hport : s.port = w :: rest)
    (hd : decodeFor s.params.variant w = .error e) : step s = .refused (.illegalWord e) := by
  refine step_of_takeWord_illegal (rest := rest) (.inl hheld) ?_ hd
  rw [hheld, hport]
  exact takeWord_false w rest

/-- Settles O4: the illegal words are those no row matches, and no word that is illegal is passed over at the port. -/
theorem illegalWordsAreRefused : Obligations.IllegalWordsAreRefused := by
  refine ⟨no_row_iff_error, fun s w rest e hheld hport hd => step_of_head_illegal hheld hport (decodeFor_of_error hd),
    fun s c before w rest e hheld hbusy hport hbefore hd => ?_, fun pin => decodeOfEncode _, fun s rest hheld hport hv => ?_⟩
  · have hfore : ∀ x ∈ before, foregroundWord x = true := fun x hx => (foregroundWord_eq_true_iff x).2 (hbefore x hx)
    have hnot : foregroundWord w = false := by simp [foregroundWord, hd]
    refine step_of_takeWord_illegal (rest := before ++ rest) (.inr hbusy) ?_ (decodeFor_of_error hd)
    rw [hheld, hport]
    exact takeWord_append_of_foreground hfore hnot
  · have hprepare : decodeFor .simple 0x48000000#32 = .error .notInVariant := rfl
    exact step_of_head_illegal hheld hport (hv ▸ hprepare)

end Sys2Proof.Machine
end

section
/-! PROOF. The status codes, their classes and the fatal codes (O7; 30_encoding R89). -/

namespace Sys2Proof.Machine

/-- Settles O7: each entry of the table is a value of the model's own. -/
theorem statusCodesAndClasses : Obligations.StatusCodesAndClasses := ⟨rfl, rfl, rfl, rfl, rfl⟩

end Sys2Proof.Machine
end

section
/-! PROOF. Trace lines (O6; 30_encoding R92). The line of an event is a name and operands made of letters and digits, with one space after
the name and a comma and a space between operands; on such a line every stage of the reader gives back the parts it was put together
from. -/

namespace Sys2Proof.Machine

/-! ### Numbers -/

theorem hexDigit_of_isDigit {c : Char} (hc : c.isDigit = true) : hexDigit c = some (c.toNat - 48) := by
  obtain ⟨hlo, hhi⟩ := Char.isDigit_iff_toNat.1 hc
  exact if_pos ⟨hlo, hhi⟩

/-- Decimal digits are read as the number they write. -/
theorem readDigits_of_isDigit {cs : List Char} (acc : Nat) (hcs : ∀ c ∈ cs, c.isDigit = true) :
    readDigits 10 acc cs = some (Nat.ofDigitChars 10 cs acc) := by
  induction cs generalizing acc with
  | nil => rfl
  | cons c cs ih =>
    obtain ⟨hc, hcs⟩ := List.forall_mem_cons.1 hcs
    have hlt : c.toNat - 48 < 10 := by
      have hhi : c.toNat ≤ 57 := (Char.isDigit_iff_toNat.1 hc).2
      omega
    simp only [readDigits, hexDigit_of_isDigit hc, hlt, if_true, ih _ hcs, Nat.ofDigitChars_cons, Nat.mul_comm acc]
    rfl

theorem isDigit_of_mem_showNat {n : Nat} {c : Char} (h : c ∈ showNat n) : c.isDigit = true :=
  Nat.isDigit_of_mem_toDigits (by decide) (by decide) h

/-- A number written in decimal is read back: no decimal begins with `0x`. -/
theorem readNat_showNat (n : Nat) : readNat (showNat n) = some n := by
  have hdigits : ∀ c ∈ showNat n, c.isDigit = true := fun _ => isDigit_of_mem_showNat
  unfold readNat
  split
  case h_1 heq => exact absurd heq Nat.toDigits_ne_nil
  case h_2 heq => exact absurd (hdigits 'x' (by simp [heq])) (by decide)
  case h_3 =>
    rw [readDigits_of_isDigit 0 hdigits]
    exact congrArg some (Nat.ofDigitChars_toDigits (by decide) (by decide))

/-- A byte written as a number is read back: a number is no quoted character. -/
theorem readByte_showNat (b : Byte) : readByte (showNat b.toNat) = some b := by
  unfold readByte
  split
  case h_1 heq => exact absurd (isDigit_of_mem_showNat (c := '\'') (n := b.toNat) (by simp [heq])) (by decide)
  case h_2 => simp [readNat_showNat, b.isLt]

theorem readAnswer_answer (g : Bool) : readAnswer (if g then "accept" else "deny").toList = some g := by
  cases g <;> rfl

/-! ### Tokens and texts -/

/-- A name or an operand as `showEvent` writes them: letters and digits, at least one. -/
structure IsToken (cs : List Char) : Prop where
  nonempty : cs ≠ []
  alphanum : ∀ c ∈ cs, c.isAlphanum = true

/-- A text that begins and ends with a token and in which no quote, comment or arrow begins. -/
structure IsText (cs : List Char) : Prop where
  nonempty : cs ≠ []
  first : ∀ c ∈ cs.head?, c ≠ ' '
  last : ∀ c ∈ cs.getLast?, c ≠ ' '
  chars : ∀ c ∈ cs, c.isAlphanum = true ∨ c = ' ' ∨ c = ','

theorem ne_of_isAlphanum {c d : Char} (hc : c.isAlphanum = true) (hd : d.isAlphanum = false) : c ≠ d := by
  rintro rfl
  simp [hc] at hd

theorem isToken_showNat (n : Nat) : IsToken (showNat n) where
  nonempty := Nat.toDigits_ne_nil
  alphanum c hc := by simp [Char.isAlphanum, isDigit_of_mem_showNat hc]

theorem isToken_answer (g : Bool) : IsToken (if g then "accept" else "deny").toList := by
  cases g <;> exact ⟨by simp, by simp⟩

theorem IsToken.isText {a : List Char} (ha : IsToken a) : IsText a where
  nonempty := ha.nonempty
  first c hc := ne_of_isAlphanum (ha.alphanum c (List.mem_of_mem_head? hc)) (by decide)
  last c hc := ne_of_isAlphanum (ha.alphanum c (List.mem_of_mem_getLast? hc)) (by decide)
  chars c hc := .inl (ha.alphanum c hc)

/-- Two texts with a separator of spaces and commas between them are a text. -/
theorem IsText.append {a b sep : List Char} (ha : IsText a) (hsep : ∀ c ∈ sep, c = ' ' ∨ c = ',') (hb : IsText b) :
    IsText (a ++ sep ++ b) where
  nonempty := by simp [ha.nonempty]
  first c hc := ha.first c (by
    obtain ⟨x, xs, rfl⟩ := List.exists_cons_of_ne_nil ha.nonempty
    exact hc)
  last c hc := hb.last c (by rwa [List.getLast?_append_of_ne_nil _ hb.nonempty] at hc)
  chars c hc := by
    rcases List.mem_append.1 hc with hc | hc
    · rcases List.mem_append.1 hc with hc | hc
      · exact ha.chars c hc
      · exact .inr (hsep c hc)
    · exact hb.chars c hc

/-! ### The stages of the reader -/

theorem stripComment_of_chars {cs : List Char} (h : ∀ c ∈ cs, c.isAlphanum = true ∨ c = ' ' ∨ c = ',') :
    stripComment false cs = cs := by
  induction cs with
  | nil => rfl
  | cons c cs ih =>
    obtain ⟨hc, hcs⟩ := List.forall_mem_cons.1 h
    -- the characters at which a pattern of `stripComment` begins; 0x22 is the double quote
    have hplain : c ≠ '\'' ∧ c ≠ ';' ∧ c ≠ '-' ∧ c ≠ '\x22' := by
      rcases hc with hc | rfl | rfl
      · refine ⟨?_, ?_, ?_, ?_⟩ <;> exact ne_of_isAlphanum hc (by decide)
      · decide
      · decide
    obtain ⟨hquote, hsemi, hdash, hstring⟩ := hplain
    simp [stripComment, hquote, hsemi, hdash, hstring, ih hcs]

theorem dropWhile_space_of_first {cs : List Char} (h : ∀ c ∈ cs.head?, c ≠ ' ') : cs.dropWhile (· == ' ') = cs := by
  cases cs with
  | nil => rfl
  | cons c cs => simp [h c rfl]

theorem trimSpaces_space_cons (cs : List Char) : trimSpaces (' ' :: cs) = trimSpaces cs := rfl

theorem IsText.trimSpaces_eq {cs : List Char} (h : IsText cs) : trimSpaces cs = cs := by
  have hlast : ∀ c ∈ cs.reverse.head?, c ≠ ' ' := by
    rw [List.head?_reverse]
    exact h.last
  rw [trimSpaces, dropWhile_space_of_first h.first, dropWhile_space_of_first hlast, List.reverse_reverse]

theorem IsToken.takeWhile_name {name : List Char} (h : IsToken name) (rest : List Char) :
    (name ++ ' ' :: rest).takeWhile (· != ' ') = name := by
  have hname : ∀ c ∈ name, (c != ' ') = true := fun c hc => by simpa using ne_of_isAlphanum (h.alphanum c hc) (by decide)
  simp [List.takeWhile_append_of_pos hname]

theorem IsToken.dropWhile_name {name : List Char} (h : IsToken name) (rest : List Char) :
    (name ++ ' ' :: rest).dropWhile (· != ' ') = ' ' :: rest := by
  have hname : ∀ c ∈ name, (c != ' ') = true := fun c hc => by simpa using ne_of_isAlphanum (h.alphanum c hc) (by decide)
  simp [List.dropWhile_append_of_pos hname]

/-- The characters of a token are put onto the argument being read. -/
theorem splitArgs_token_append {a : List Char} (ha : ∀ c ∈ a, c.isAlphanum = true) (acc rest : List Char) :
    splitArgs acc (a ++ rest) = splitArgs (a.reverse ++ acc) rest := by
  induction a generalizing acc with
  | nil => rfl
  | cons c a ih =>
    obtain ⟨hc, ha⟩ := List.forall_mem_cons.1 ha
    have hquote : c ≠ '\'' := ne_of_isAlphanum hc (by decide)
    have hcomma : c ≠ ',' := ne_of_isAlphanum hc (by decide)
    simp [splitArgs, hquote, ih ha]

theorem IsToken.splitArgs_eq {a : List Char} (ha : IsToken a) : splitArgs [] a = [a] := by
  have h := splitArgs_token_append ha.alphanum [] []
  simpa [splitArgs, ha.isText.trimSpaces_eq] using h

/-- A comma ends an argument, and the space after it is trimmed. -/
theorem splitArgs_two {a b : List Char} (ha : IsToken a) (hb : IsToken b) :
    splitArgs [] (a ++ ", ".toList ++ b) = [a, b] := calc
  _ = splitArgs (a.reverse ++ []) (", ".toList ++ b) := by rw [List.append_assoc, splitArgs_token_append ha.alphanum]
  _ = trimSpaces (a.reverse ++ []).reverse :: splitArgs [' '] (b ++ []) := by rw [List.append_nil b]; rfl
  _ = [a, trimSpaces (' ' :: b)] := by
    rw [splitArgs_token_append hb.alphanum]
    simp [splitArgs, ha.isText.trimSpaces_eq]
  _ = [a, b] := by rw [trimSpaces_space_cons, hb.isText.trimSpaces_eq]

/-! ### Lines -/

section
variable {rest : List Char} (hrest : IsText rest)
include hrest

/-- The text of a line is kept whole: it has no comment, and no space at its ends. -/
theorem line_text {name : List Char} (hname : IsToken name) :
    trimSpaces (stripComment false (name ++ ' ' :: rest)) = name ++ ' ' :: rest := by
  have htext : IsText (name ++ [' '] ++ rest) := hname.isText.append (by simp) hrest
  rw [List.append_cons, stripComment_of_chars htext.chars, htext.trimSpaces_eq]

/-- What stands after the name is the text of the operands. -/
theorem line_rest {name : List Char} (hname : IsToken name) :
    trimSpaces ((name ++ ' ' :: rest).dropWhile (· != ' ')) = rest := by
  rw [hname.dropWhile_name, trimSpaces_space_cons, hrest.trimSpaces_eq]

theorem readLine_begin : readLine ("BEGIN".toList ++ ' ' :: rest) = (readBegin (splitArgs [] rest)).map ([·]) := by
  have hname : IsToken "BEGIN".toList := ⟨by simp, by simp⟩
  simp only [readLine, line_text hrest hname, hname.takeWhile_name, line_rest hrest hname]
  rfl

theorem readLine_enq : readLine ("ENQ".toList ++ ' ' :: rest) = (readEnq (splitArgs [] rest)).map ([·]) := by
  have hname : IsToken "ENQ".toList := ⟨by simp, by simp⟩
  simp only [readLine, line_text hrest hname, hname.takeWhile_name, line_rest hrest hname]
  rfl

end

theorem readLine_rx {a : List Char} (ha : IsToken a) :
    readLine ("RX".toList ++ ' ' :: a) = (readByte a).map fun b => [.rx b] := by
  have hname : IsToken "RX".toList := ⟨by simp, by simp⟩
  simp only [readLine, line_text ha.isText hname, hname.takeWhile_name, line_rest ha.isText hname, ha.splitArgs_eq]
  rfl

/-! ### The lines of the events with operands -/

theorem showEvent_beginTx (baud : Baud) (pin : Pin) :
    showEvent (.beginTx baud pin) = "BEGIN".toList ++ ' ' :: (showNat baud.toNat ++ ", ".toList ++ showNat pin.toNat) := rfl

theorem showEvent_enq (byte : Byte) (g : Bool) : showEvent (.enq byte g) =
    "ENQ".toList ++ ' ' :: (showNat byte.toNat ++ ", ".toList ++ (if g then "accept" else "deny").toList) := by
  rw [List.append_assoc]
  cases g <;> rfl

theorem showEvent_rx (byte : Byte) : showEvent (.rx byte) = "RX".toList ++ ' ' :: showNat byte.toNat := rfl

theorem readLine_showEvent_beginTx (baud : Baud) (pin : Pin) : readLine (showEvent (.beginTx baud pin)) = some [.beginTx baud pin] := by
  have hbaud := isToken_showNat baud.toNat
  have hpin := isToken_showNat pin.toNat
  have hread : readBegin [showNat baud.toNat, showNat pin.toNat] = some (.beginTx baud pin) := by
    simp [readBegin, readNat_showNat, baud.isLt, pin.isLt]
  rw [showEvent_beginTx, readLine_begin (hbaud.isText.append (by simp) hpin.isText), splitArgs_two hbaud hpin, hread]
  rfl

theorem readLine_showEvent_enq (byte : Byte) (g : Bool) : readLine (showEvent (.enq byte g)) = some [.enq byte g] := by
  have hbyte := isToken_showNat byte.toNat
  have hanswer := isToken_answer g
  have hread : readEnq [showNat byte.toNat, (if g then "accept" else "deny").toList] = some (.enq byte g) := by
    simp only [readEnq, readByte_showNat, readAnswer_answer]
  rw [showEvent_enq, readLine_enq (hbyte.isText.append (by simp) hanswer.isText), splitArgs_two hbyte hanswer, hread]
  rfl

theorem readLine_showEvent_rx (byte : Byte) : readLine (showEvent (.rx byte)) = some [.rx byte] := by
  rw [showEvent_rx, readLine_rx (isToken_showNat byte.toNat), readByte_showNat]
  rfl

/-- Settles O6: an event without operands has one line; the others' lines are read stage by stage. -/
theorem traceLinesAreReadBack : Obligations.TraceLinesAreReadBack
  | .beginTx baud pin => readLine_showEvent_beginTx baud pin
  | .enq byte g => readLine_showEvent_enq byte g
  | .rx byte => readLine_showEvent_rx byte
  | .flush => rfl
  | .endTx => rfl
  | .tick => rfl
  | .prepare => rfl
  | .startread => rfl
  | .stopread => rfl
  | .regl => rfl
  | .unregl => rfl
  | .timeout => rfl
  | .pstop => rfl

end Sys2Proof.Machine
end

section
/-! PROOF. The TX engine's host commands (O10 to O15; 40_tx_host_commands R100 to R105, 60_exceptions R243, R244). Each clause names the
case of the command's meaning that it is about. That a hold is the field `held`, that a refusal has a name, and that a request is recorded
in `schedLog` are the model's (log entries 3, 7, 10). -/

namespace Sys2Proof.Machine

variable {s t : State}

/-! ### A held command -/

/-- Only a command of the foreground, FLUSH or END, changes what is held (60_exceptions R244, R253). -/
theorem exec_held_of_not_foreground {i : Instr} (h : exec i s = .next t) (hi : foregroundOnly i = false) : t.held = s.held := by
  by_contra hne
  obtain ⟨rfl | rfl, -⟩ := (exec_outputs h).held hne <;> cases hi

/-- The step of an idle engine with a command held is that command, with nothing held any more (60_exceptions R244). -/
theorem step_of_held_idle {c : HeldCommand} (hheld : s.held = some c) (hidle : s.tx.busy = false) :
    step s = exec c.instr { s with held := none } := by
  simp [step, fetch, hheld, hidle]

/-- A command held on a busy engine stays held: what such a step takes is not the foreground's (60_exceptions R244). -/
theorem step_held_of_busy (h : step s = .next t) (hheld : s.held.isSome = true) (hbusy : s.tx.busy = true) : t.held = s.held := by
  obtain ⟨-, rfl⟩ | ⟨i, s', hfetch, he⟩ := step_next h
  · rfl
  · obtain ⟨hd, pt, rfl, ⟨c, -, hidle, -⟩ | ⟨rfl, hwait⟩⟩ := fetch_eq_event hfetch
    · rw [hbusy] at hidle; cases hidle
    · exact exec_held_of_not_foreground (s := { s with port := pt }) he (hwait hheld).2

/-- Settles O10: an idle engine's fetch is the held command itself, and a busy engine's fetch leaves the foreground's words alone. -/
theorem heldCommandWaitsForIdle : Obligations.HeldCommandWaitsForIdle := by
  refine ⟨fun _ _ => step_of_held_idle, fun s t c hheld hbusy h => ?_⟩
  rw [step_held_of_busy h (by simp [hheld]) hbusy, hheld]

/-! ### BEGIN -/

/-- A bit period fits the 32 bits of `period` (10_state R30). -/
theorem bitPeriod_lt (p : Params) (baud : Baud) : bitPeriod p baud < 2 ^ 32 :=
  (Nat.div_le_self _ _).trans_lt p.timerHz.isLt

/-- A slot's length fits the 32 bits of `slot_us`: the bound of TS_MARGIN_US leaves room for the ten bits of the slowest rate
(40_tx_host_commands R101, 93 U26). -/
theorem slotLength_lt {baud : Baud} (hbaud : baud ≠ 0#22) (p : Params) : slotLength p baud < 2 ^ 32 := by
  have hpos : 0 < baud.toNat := by bv_omega
  have hceil : ceilDiv 10000000 baud.toNat ≤ 10000000 := Nat.div_le_of_le_mul (by omega)
  have hmargin := p.tsMarginUs.isLt
  unfold slotLength
  omega

/-- BEGIN on an engine that is not begun: refused for an impossible rate, else it configures (40_tx_host_commands R101). -/
theorem execBegin_of_unbegun {baud : Baud} {pin : Pin} (hf : s.fault = none) (hb : s.tx.begun = false) :
    execBegin baud pin s =
      if baud = 0#22 then .refused .baudZero
      else if bitPeriod s.params baud = 0 then .refused .baudAboveTimer
      else .next { s with tx := s.tx.configure s.params baud pin, txResult := .ok } := by
  rw [execBegin, unlessHalted_of_running hf, hb, if_neg Bool.false_ne_true]

/-- Settles O11: the two quotients BEGIN computes fit their registers, so `configure` stores them as numbers. -/
theorem beginConfiguresOnce : Obligations.BeginConfiguresOnce := by
  refine fun baud pin s hf => ⟨fun hb => ?begun, fun hb h0 => ?zero, fun hb h0 hp => ?above, fun hb h0 hp => ?configures⟩
  case begun => exact execBegin_next.2 ⟨hf, .inl ⟨hb, rfl⟩⟩
  case zero => exact (execBegin_of_unbegun hf hb).trans (if_pos h0)
  case above => exact (execBegin_of_unbegun hf hb).trans ((if_neg h0).trans (if_pos hp))
  case configures =>
    refine ⟨BitVec.ofNat 32 (bitPeriod s.params baud), BitVec.ofNat 32 (slotLength s.params baud), ?period, ?slot, ?next⟩
    case period => exact (BitVec.toNat_ofNat ..).trans (Nat.mod_eq_of_lt (bitPeriod_lt s.params baud))
    case slot => exact (BitVec.toNat_ofNat ..).trans (Nat.mod_eq_of_lt (slotLength_lt h0 s.params))
    case next => exact execBegin_next.2 ⟨hf, .inr ⟨hb, h0, hp, rfl⟩⟩

/-! ### ENQ -/

/-- The start of a transmission takes the oldest byte of the queue (40_tx_host_commands R103). -/
theorem startSimple_of_cons {e : TxEngine} {b : Byte} {rest : List Byte} (h : e.q = b :: rest) :
    e.startSimple = { e with q := rest, cur := b, cursor := 0#4, line := false, wire := e.wire ++ [false],
                             timerRun := true, busy := true } := by
  rw [TxEngine.startSimple, startByte_of_cons h]

/-- ENQ with room on an idle engine starts a transmission or asks for a window (40_tx_host_commands R102). -/
theorem exec_enq_of_idle {byte : Byte} {g : Bool} (hf : s.fault = none) (hb : s.tx.begun = true)
    (hroom : s.tx.q.length < s.params.qcap) (hidle : s.tx.busy = false) (h : enqFromIdle (s.tx.append byte) g s = .next t) :
    exec (.enq byte g) s = .next t :=
  execEnq_next.2 ⟨hf, hb, .inr ⟨hroom, .inr ⟨hidle, h⟩⟩⟩

/-- Settles O12: one clause per case of ENQ; in SIMPLE the queue with the new byte is never empty, so a byte starts. -/
theorem enqQueuesStartsOrRequests : Obligations.EnqQueuesStartsOrRequests := by
  refine fun byte g s hf hb => ⟨fun hfull => ?full, fun hroom hbusy => ?queued, fun hroom hidle hv first rest hq => ?started,
    fun hroom hidle hv hg => ?requested, fun hroom hidle hv hg => ?denied⟩
  case full => exact execEnq_next.2 ⟨hf, hb, .inl ⟨hfull.ge, rfl⟩⟩
  case queued => exact exec_enq_of_busy hf hb hroom hbusy
  case started =>
    refine exec_enq_of_idle hf hb hroom hidle (enqFromIdle_next.2 (.inl ⟨hv, ?_⟩))
    rw [startSimple_of_cons (e := s.tx.append byte) hq]
    rfl
  case requested => exact exec_enq_of_idle hf hb hroom hidle (enqFromIdle_next.2 (.inr (.inl ⟨hv, hg, rfl⟩)))
  case denied => exact exec_enq_of_idle hf hb hroom hidle (enqFromIdle_next.2 (.inr (.inr ⟨hv, hg, rfl⟩)))

/-! ### Refusals -/

/-- Every event of a halted block is refused, the parser's too (60_exceptions R238, R243). -/
theorem exec_of_halted (h : s.fault ≠ none) : ∀ i : Instr, exec i s = .refused .halted
  | .beginTx _ _ | .enq _ _ | .flush | .endTx | .tick | .prepare | .startread | .stopread | .regl | .unregl | .rx _ | .timeout
  | .pstop => unlessHalted_of_halted h _

/-- ENQ, FLUSH and END are refused before BEGIN (40_tx_host_commands R100). -/
theorem whenBegun_of_unbegun (hf : s.fault = none) (hb : s.tx.begun = false) (r : Result) :
    whenBegun s r = .refused .notBegun := by
  rw [whenBegun, unlessHalted_of_running hf, hb, if_neg Bool.false_ne_true]

/-- Settles O15: the two guards of the TX events. -/
theorem txEventsRefusedOutOfUse : Obligations.TxEventsRefusedOutOfUse :=
  ⟨fun _ i h _ => exec_of_halted h i, fun _ hf hb =>
    ⟨fun _ _ => whenBegun_of_unbegun hf hb _, whenBegun_of_unbegun hf hb _, whenBegun_of_unbegun hf hb _⟩⟩

/-! ### FLUSH and END -/

/-- Settles O13: FLUSH waits on a busy SIMPLE engine only. -/
theorem flushWritesOnlyItsResult : Obligations.FlushWritesOnlyItsResult := fun _ hf hb =>
  ⟨fun _ hidle => execFlush_next.2 ⟨hf, hb, .inr ⟨.inr hidle, rfl⟩⟩,
   fun hv => execFlush_next.2 ⟨hf, hb, .inr ⟨.inl hv, rfl⟩⟩,
   fun hv hbusy => execFlush_next.2 ⟨hf, hb, .inl ⟨hv, hbusy, rfl⟩⟩⟩

/-- The notice RELEASED is appended exactly when there is a grant or an accepted request (40_tx_host_commands R105). -/
theorem State.noteReleased_eq (s : State) : s.noteReleased =
    { s with statusLog := if s.tx.gs = .none then s.statusLog else s.statusLog ++ [.released] } := by
  unfold State.noteReleased
  split <;> rfl

/-- Settles O14: END waits on a busy SIMPLE engine only; in COOP it abandons what there is, with a notice if there was a grant. -/
theorem endDrainsOrAbandons : Obligations.EndDrainsOrAbandons := by
  refine fun s hf hb => ⟨fun hv hidle => ?ends, fun hv => ?abandons, fun hv hbusy => ?held⟩
  case ends => exact execEnd_next.2 ⟨hf, hb, .inr (.inl ⟨hv, hidle, rfl⟩)⟩
  case abandons =>
    refine execEnd_next.2 ⟨hf, hb, .inr (.inr ⟨hv, ?_⟩)⟩
    rw [State.noteReleased_eq]
    rfl
  case held => exact execEnd_next.2 ⟨hf, hb, .inl ⟨hv, hbusy, rfl⟩⟩

end Sys2Proof.Machine
end

section
/-! PROOF. The bit engine (O16 to O21, O25, O26; 41_tx_bit_engine R120 to R127, 42_tx_timeslot R144 to R146). The one TICK of each
cursor, the nine TICKs of a byte and the induction over the queue are proved with the runs of O27 and O28; what is proved here is the
cursor out of range and the events that are not enabled. That actions are recorded in `schedLog` and that a missing step is a named
fault are the model's (log entries 10, 6). -/

namespace Sys2Proof.Machine

variable {s : State}

/-! ### One TICK -/

/-- Settles O16: the data bit's case, with the action written out by variant. -/
theorem tickDrivesDataBit : Obligations.TickDrivesDataBit := by
  intro s hf ht hc
  have low : s.tx.cursor ≤ 7#4 := by bv_omega
  rw [exec_tick_dataBit hf ht low, State.answer_eq]
  rfl

/-- Settles O17: the stop bit's case, with the action written out by variant. -/
theorem tickDrivesStopBit : Obligations.TickDrivesStopBit := by
  intro s hf ht hc
  rw [exec_tick_stopBit hf ht hc, State.answer_eq]
  rfl

/-- Settles O18: the case of a byte behind the stop bit, with the extension written out by variant. -/
theorem tickTakesNextByte : Obligations.TickTakesNextByte := by
  intro s b rest hf ht hc hq
  rw [exec_tick_nextByte hf ht hc hq, State.answer_eq]

/-- The model asks whether the variant is not SIMPLE where the spec asks whether it is COOP. -/
theorem goIdle_eq (s : State) : s.tx.goIdle (!s.isSimple) = { s.tx with
    cursor := 0#4, timerRun := false, busy := false, gs := if s.params.variant = .coop then .none else s.tx.gs } := by
  unfold TxEngine.goIdle State.isSimple
  cases s.params.variant <;> rfl

/-- Settles O19: the case of nothing behind the stop bit, with the end of the window written out by variant. -/
theorem tickGoesIdle : Obligations.TickGoesIdle := by
  intro s hf ht hc hq
  rw [exec_tick_goIdle hf ht hc hq, State.answer_eq, goIdle_eq]

/-- TICK with a cursor above 9 latches the fatal CURSOR_RANGE (41_tx_bit_engine R125). -/
theorem exec_tick_cursorRange (hf : s.fault = none) (ht : s.tx.timerRun = true) (hc : 9#4 < s.tx.cursor) :
    exec .tick s = .next { s with fault := some .cursorRange } :=
  execTick_next.2 ⟨hf, ht, (tickCases_next hf).2 (.inr (.inr (.inr (.inr ⟨hc, rfl⟩))))⟩

/-- Settles O20: the latched fault halts the block, so no event follows. -/
theorem tickCursorOutOfRangeIsFatal : Obligations.TickCursorOutOfRangeIsFatal := by
  intro s hf ht hc
  have high : 9#4 < s.tx.cursor := by bv_omega
  exact ⟨exec_tick_cursorRange hf ht high, rfl, exec_of_halted (Option.some_ne_none _)⟩

/-! ### Events that are not enabled -/

/-- A parser that is stopped or asked to stop reads nothing (43_parser_framing R165, R173). -/
theorem reading_eq_false (h : s.ps.pstate = .stopped ∨ s.ps.stopReq = true) : s.reading = false := by
  rw [Bool.eq_false_iff, ne_eq, reading_eq_true_iff]
  rintro ⟨hrun, hstop⟩
  obtain h | h := h
  · exact hrun h
  · exact absurd (hstop.symm.trans h) Bool.false_ne_true

/-- PSTOP waits for a running parser that was asked to stop (43_parser_framing R164). -/
theorem stopReq_and_running_eq_false (h : s.ps.pstate = .stopped ∨ s.ps.stopReq = false) :
    (s.ps.stopReq && s.running) = false := by
  obtain h | h := h <;> simp [State.running, h]

/-- Settles O21: in a block that is not halted, each of these events asks its own enabling condition alone. -/
theorem eventsNotEnabledHaveNoStep : Obligations.EventsNotEnabledHaveNoStep := by
  refine fun s hf => ⟨fun ht => ?tick, fun h => ⟨fun byte => ?rx, ?timeout⟩, fun h => ?pstop⟩
  case tick => rw [exec, execTick, unlessHalted_of_running hf, ht, if_neg Bool.false_ne_true]
  case rx => rw [exec, execRx, unlessHalted_of_running hf, reading_eq_false h, if_neg Bool.false_ne_true]
  case timeout => rw [exec, execTimeout, unlessHalted_of_running hf, reading_eq_false h, if_neg Bool.false_ne_true]
  case pstop => rw [exec, execPstop, unlessHalted_of_running hf, stopReq_and_running_eq_false h, if_neg Bool.false_ne_true]

/-! ### The waveform -/

/-- Settles O25, by induction on the TICKs left of the byte (`execAll_ticks_to_stopBit`). -/
theorem nineTicksSendTheByte : Obligations.NineTicksSendTheByte := fun _ => execAll_ticks_nine

/-- Settles O26, by induction over the queue (`execAll_ticks_of_queue`): ten TICKs take the engine from the start of a byte to the
start of the next one. -/
theorem ticksSendTheWholeQueue : Obligations.TicksSendTheWholeQueue := fun _ hf ht hc => execAll_ticks_of_queue hf ht hc rfl

end Sys2Proof.Machine
end

section
/-! PROOF. The timeslot grant machine (O22, O23, O24; 42_tx_timeslot R140 to R149). What PREPARE does is one clause per case of its
meaning; the other two are read off what an event can do to the TX engine (`TxMove`) and who writes to the scheduler (`Outputs`). That
requests and actions are recorded in `schedLog` is the model's (log entry 10). -/

namespace Sys2Proof.Machine

variable {i : Instr} {p : Params} {e e' : TxEngine} {s t : State} {us : BitVec 32}

/-! ### PREPARE -/

/-- Settles O22: a requested window with a byte, a requested window without one, and any other window. -/
theorem prepareOpensRequestedWindow : Obligations.PrepareOpensRequestedWindow := by
  refine fun s hf hv => ⟨fun b rest hg hq => ?opened, fun hg hq => ?empty, fun hg => ?otherWindow⟩
  case opened => exact exec_prepare_of_queued hf hv hg hq
  case empty => exact execPrepare_next.2 ⟨hf, hv, .inl ⟨hg, hq, rfl⟩⟩
  case otherWindow => exact execPrepare_next.2 ⟨hf, hv, .inr (.inr ⟨hg, rfl⟩)⟩

/-! ### The grant state -/

/-- The rows of the grant table (42_tx_timeslot R140), as far as the engine alone shows them. PREPARE never finds a requested window
with nothing to send, so the row of R143 for it is not among them. -/
theorem TxMove.gs_cases (m : TxMove p i e e') (hv : p.variant = .coop) (phase : TxPhase p.variant e) (h : e'.gs ≠ e.gs) :
    (e.gs = .none ∧ e'.gs = .requested ∧ ∃ b g, i = .enq b g) ∨
    (e.gs = .requested ∧ e'.gs = .active ∧ i = .prepare) ∨
    (e.gs = .active ∧ e'.gs = .none ∧ i = .tick ∧ e.cursor = 9#4 ∧ e.q = []) ∨
    (e.gs ≠ .none ∧ e'.gs = .none ∧ i = .endTx) := by
  cases m with
  | keep | configure | append | deny | release | dataBit | stopBit => exact absurd rfl h
  | nextByte => exact absurd (TxEngine.startByte_gs e) h
  | startSimple _ _ _ simple => exact absurd (simple.symm.trans hv) nofun
  | request _ _ idle => exact .inl ⟨(phase.idle idle).gs, rfl, _, _, rfl⟩
  | openWindow _ gs => exact .inr (.inl ⟨gs, rfl, rfl⟩)
  | emptyWindow _ gs empty => exact absurd empty (phase.waiting gs).queued
  | goIdle timer cursor empty =>
    have active : e.gs = .active := by rw [(phase.sending timer).gs, hv, sendingGrant]
    exact .inr (.inr (.inl ⟨active, by simp [hv], rfl, cursor, empty⟩))
  | abandon => exact .inr (.inr (.inr ⟨h.symm, rfl, rfl⟩))

/-- The ENQ that changes the grant state is the one whose request the scheduler accepts (42_tx_timeslot R141, R142). -/
theorem exec_enq_accepted_of_gs_ne {b : Byte} {g : Bool} (h : exec (.enq b g) s = .next t) (hv : s.params.variant = .coop)
    (hne : t.tx.gs ≠ s.tx.gs) : g = true := by
  obtain ⟨-, -, ⟨-, rfl⟩ | ⟨-, ⟨-, rfl⟩ | ⟨-, hstart⟩⟩⟩ := execEnq_next.1 h
  · exact absurd rfl hne
  · exact absurd rfl hne
  · obtain ⟨simple, -⟩ | ⟨-, accepted, -⟩ | ⟨-, -, rfl⟩ := enqFromIdle_next.1 hstart
    · exact absurd (simple.symm.trans hv) nofun
    · exact accepted
    · exact absurd rfl hne

/-- The END that changes the grant state gives the notice RELEASED (40_tx_host_commands R105). -/
theorem exec_endTx_released_of_gs_ne (h : exec .endTx s = .next t) (hne : t.tx.gs ≠ s.tx.gs) :
    t.statusLog = s.statusLog ++ [.released] := by
  obtain ⟨-, -, ⟨-, -, rfl⟩ | ⟨-, -, rfl⟩ | ⟨-, rfl⟩⟩ := execEnd_next.1 h
  · exact absurd rfl hne
  · exact absurd rfl hne
  · have granted : s.tx.gs ≠ .none := hne.symm
    rw [State.noteReleased_eq, if_neg granted]

/-- Settles O23: the engine's moves give the rows, the meanings of ENQ and END the answer and the notice. -/
theorem grantMovesOnlyByTheTable : Obligations.GrantMovesOnlyByTheTable := by
  intro i s t hv hinv h hne
  obtain ⟨hs, ht, b, g, rfl⟩ | prepared | ticked | ⟨hs, ht, rfl⟩ := (exec_txMove h).gs_cases hv hinv.phase hne
  · obtain rfl := exec_enq_accepted_of_gs_ne h hv hne
    exact .inl ⟨hs, ht, b, rfl⟩
  · exact .inr (.inl prepared)
  · exact .inr (.inr (.inl ticked))
  · exact .inr (.inr (.inr ⟨hs, ht, rfl, exec_endTx_released_of_gs_ne h hne⟩))

/-! ### Requests -/

theorem State.emit_schedLog_ne {o o' : SchedOut} (h : o ≠ o') : (s.emit o).schedLog ≠ s.schedLog ++ [o'] := by
  simpa using h

theorem State.answer_schedLog_ne {o o' : SchedOut} (h : o ≠ o') : (s.answer o).schedLog ≠ s.schedLog ++ [o'] := by
  rw [State.answer_schedLog]
  split
  · simp
  · exact State.emit_schedLog_ne h

/-- TICK answers with an action, it requests nothing (42_tx_timeslot R144 to R146). -/
theorem exec_tick_requests_nothing (h : exec .tick s = .next t) : t.schedLog ≠ s.schedLog ++ [.request us] := by
  obtain ⟨hf, -, hcases⟩ := execTick_next.1 h
  obtain ⟨-, rfl⟩ | ⟨-, rfl⟩ | ⟨-, -, rfl⟩ | ⟨-, -, rfl⟩ | ⟨-, rfl⟩ := (tickCases_next hf).1 hcases
  on_goal 5 => simp
  all_goals exact State.answer_schedLog_ne nofun

/-- PREPARE answers with an action, it requests nothing (42_tx_timeslot R143, R147). -/
theorem exec_prepare_requests_nothing (h : exec .prepare s = .next t) : t.schedLog ≠ s.schedLog ++ [.request us] := by
  obtain ⟨-, -, ⟨-, -, rfl⟩ | ⟨-, -, rfl⟩ | ⟨-, rfl⟩⟩ := execPrepare_next.1 h
  all_goals exact State.emit_schedLog_ne nofun

/-- The ENQ that requests a window finds an idle COOP engine, and asks for `slot_us` (42_tx_timeslot R141). -/
theorem exec_enq_request {b : Byte} {g : Bool} (h : exec (.enq b g) s = .next t) (hr : t.schedLog = s.schedLog ++ [.request us]) :
    s.params.variant = .coop ∧ s.tx.busy = false ∧ us = s.tx.slotUs := by
  obtain ⟨-, -, ⟨-, rfl⟩ | ⟨-, ⟨-, rfl⟩ | ⟨idle, hstart⟩⟩⟩ := execEnq_next.1 h
  · simp at hr
  · simp at hr
  · obtain ⟨-, rfl⟩ | ⟨coop, -, rfl⟩ | ⟨coop, -, rfl⟩ := enqFromIdle_next.1 hstart
    · simp at hr
    · exact ⟨coop, idle, by simpa using hr.symm⟩
    · exact ⟨coop, idle, by simpa using hr.symm⟩

/-- Settles O24: of the three events the scheduler hears of, TICK and PREPARE only answer it, and ENQ asks it from an idle engine,
which holds no grant. -/
theorem requestsOnlyWithoutGrant : Obligations.RequestsOnlyWithoutGrant := by
  intro i s t us hinv h hr
  have grown : t.schedLog ≠ s.schedLog := by simp [hr]
  obtain ⟨b, g, rfl⟩ | rfl | rfl := (exec_outputs h).schedLog.writer_of_ne grown
  · obtain ⟨coop, idle, hus⟩ := exec_enq_request h hr
    exact ⟨coop, (hinv.phase.idle idle).gs, idle, hus, b, g, rfl⟩
  · exact absurd hr (exec_tick_requests_nothing h)
  · exact absurd hr (exec_prepare_requests_nothing h)

end Sys2Proof.Machine
end

section
/-! PROOF. What each parser event does in each state of the framing machine (O29 to O37; 43_parser_framing R161 to R174). RX is first
brought to the function of the framing machine's state, on the byte's low seven bits; each clause then names the branch it is about. The
name of STARTREAD's refusal is the model's (log entry 7), and the end-of-text octet is a parameter (log entry 14). -/

namespace Sys2Proof.Machine

variable {s : State} {b7 : Byte7} {byte : Byte}

/-! ### STARTREAD, STOPREAD, PSTOP -/

/-- STARTREAD is refused while the read loop runs (43_parser_framing R161; the name is the model's, log entry 7). -/
theorem exec_startread_of_running (hf : s.fault = none) (hrun : s.ps.pstate ≠ .stopped) :
    exec .startread s = .refused .alreadyReading := by
  rw [exec, execStartread, unlessHalted_of_running hf, if_pos ((running_eq_true_iff s).2 hrun)]

/-- STOPREAD changes the flag of a running loop only (43_parser_framing R162). -/
theorem exec_stopread (hf : s.fault = none) : exec .stopread s =
    .next { s with ps := { s.ps with stopReq := s.ps.stopReq || s.running }, pResult := .ok } :=
  execStopread_next.2 ⟨hf, rfl⟩

/-- Settles O29: one case of the three meanings for each clause; PSTOP with a next state meets its whole enabling condition. -/
theorem readLoopStartsAndStops : Obligations.ReadLoopStartsAndStops := by
  refine ⟨fun s hf => ⟨fun hp => ?starts, exec_startread_of_running hf, fun hrun => ?flags, fun hp => ?onlyResult,
    fun hstop hrun => ?stops⟩, fun s t hoff h => ?notEnabled⟩
  case starts => exact execStartread_next.2 ⟨hf, hp, rfl⟩
  case flags => rw [exec_stopread hf, (running_eq_true_iff s).2 hrun, Bool.or_true]
  case onlyResult =>
    have notRunning : s.running = false := by rw [State.running, hp]; rfl
    rw [exec_stopread hf, notRunning, Bool.or_false]
  case stops => exact execPstop_next.2 ⟨hf, hstop, hrun, rfl⟩
  case notEnabled =>
    obtain ⟨hf, hstop, hrun, -⟩ := execPstop_next.1 h
    obtain hoff | hoff | hoff := hoff
    · exact absurd (hoff.symm.trans hstop) Bool.false_ne_true
    · exact hrun hoff
    · exact hoff hf

/-! ### The 7-bit mask -/

theorem and_mask_toNat (byte : Byte) : (byte &&& 0x7F#8).toNat = byte.toNat % 128 :=
  (BitVec.toNat_and ..).trans (Nat.and_two_pow_sub_one_eq_mod byte.toNat 7)

theorem mask7_widen (b7 : Byte7) : mask7 (widen b7) = b7 := by
  apply BitVec.eq_of_toNat_eq
  simp only [mask7, widen, BitVec.extractLsb'_toNat, BitVec.toNat_setWidth, Nat.shiftRight_zero]
  omega

/-- The mask leaves the low seven bits as a byte (43_parser_framing R163). -/
theorem widen_mask7 (byte : Byte) : widen (mask7 byte) = byte &&& 0x7F#8 := by
  apply BitVec.eq_of_toNat_eq
  rw [and_mask_toNat]
  simp only [widen, mask7, BitVec.extractLsb'_toNat, BitVec.toNat_setWidth, Nat.shiftRight_zero]
  omega

/-- The low seven bits determine the byte that the framing machine sees. -/
theorem mask7_eq_of_and (h : widen b7 = byte &&& 0x7F#8) : mask7 byte = b7 := by
  rw [← mask7_widen (mask7 byte), widen_mask7, ← h, mask7_widen]

/-- A payload byte sent as it is passes the mask unchanged. -/
theorem widen_and_mask (b7 : Byte7) : widen b7 = widen b7 &&& 0x7F#8 := by
  rw [← widen_mask7, mask7_widen]

/-- Settles O30: the framing machine is given the masked byte alone. -/
theorem rxSeesSevenBits : Obligations.RxSeesSevenBits := by
  intro s b c h
  have same : mask7 b = mask7 c := mask7_eq_of_and (by rw [widen_mask7, h])
  rw [exec, exec, execRx, execRx, same]

/-! ### RX in each reading state -/

section
variable (hb : widen b7 = byte &&& 0x7F#8) (hf : s.fault = none) (hstop : s.ps.stopReq = false)
include hb hf hstop

/-- RX of a reading parser is the framing machine on the low seven bits (43_parser_framing R163, R165). -/
theorem exec_rx_of_running (hrun : s.ps.pstate ≠ .stopped) : exec (.rx byte) s = .next (rxByte b7 s) :=
  execRx_next.2 ⟨hf, hrun, hstop, by rw [mask7_eq_of_and hb]⟩

theorem exec_rx_waitStart (hp : s.ps.pstate = .waitStart) : exec (.rx byte) s = .next (rxWaitStart b7 s) := by
  rw [exec_rx_of_running hb hf hstop (hp ▸ nofun), rxByte, hp]

theorem exec_rx_groups (hp : s.ps.pstate = .groups) : exec (.rx byte) s = .next (rxGroups b7 s) := by
  rw [exec_rx_of_running hb hf hstop (hp ▸ nofun), rxByte, hp]

theorem exec_rx_label (hp : s.ps.pstate = .label) : exec (.rx byte) s = .next (rxLabel b7 s) := by
  rw [exec_rx_of_running hb hf hstop (hp ▸ nofun), rxByte, hp]

theorem exec_rx_value (hp : s.ps.pstate = .value) : exec (.rx byte) s = .next (rxValue b7 s) := by
  rw [exec_rx_of_running hb hf hstop (hp ▸ nofun), rxByte, hp]

theorem exec_rx_trailer (hp : s.ps.pstate = .trailer) : exec (.rx byte) s = .next (rxTrailer b7 s) := by
  rw [exec_rx_of_running hb hf hstop (hp ▸ nofun), rxByte, hp]

end

/-- RX in CHECKSUM compares the low seven bits as a byte (43_parser_framing R170). -/
theorem exec_rx_checksum (hf : s.fault = none) (hstop : s.ps.stopReq = false) (hp : s.ps.pstate = .checksum) :
    exec (.rx byte) s =
      .next (if byte &&& 0x7F#8 = checksum s.ps.label s.ps.value then s.goto .trailer else s.abort .checksumMismatch) := by
  rw [exec_rx_of_running (widen_mask7 byte) hf hstop (hp ▸ nofun), rxByte, hp, ← widen_mask7, rxChecksum]

/-- Settles O31: the three branches of WAITSTART. -/
theorem rxLooksForStartOfFrame : Obligations.RxLooksForStartOfFrame := by
  intro byte b7 s hb hf hstop hp
  rw [exec_rx_waitStart hb hf hstop hp, rxWaitStart]
  refine ⟨fun hstx => ?opens, fun hstx hend => ?ended, fun hstx hetx heot => ?discarded⟩
  case opens => rw [if_pos hstx]; rfl
  case ended => rw [if_neg hstx, if_pos hend]; rfl
  case discarded => rw [if_neg hstx, if_neg (not_or.2 ⟨hetx, heot⟩)]

/-- Settles O32: the three branches of GROUPS. -/
theorem rxBeginsGroupOrEndsFrame : Obligations.RxBeginsGroupOrEndsFrame := by
  intro byte b7 s hb hf hstop hp
  rw [exec_rx_groups hb hf hstop hp, rxGroups]
  refine ⟨fun hlf => ?begins, fun hlf hend => ?completes, fun hlf hetx heot => ?aborts⟩
  case begins => rw [if_pos hlf]
  case completes => rw [if_neg hlf, if_pos hend]; rfl
  case aborts => rw [if_neg hlf, if_neg (not_or.2 ⟨hetx, heot⟩)]; rfl

/-- Settles O33: the three branches of LABEL. -/
theorem rxAccumulatesLabel : Obligations.RxAccumulatesLabel := by
  intro byte b7 s hb hf hstop hp
  rw [exec_rx_label hb hf hstop hp, rxLabel]
  refine ⟨fun hsp => ?ends, fun hsp hroom => ?appends, fun hsp hfull => ?aborts⟩
  case ends => rw [if_pos hsp]; rfl
  case appends => rw [if_neg hsp, if_pos hroom]; rfl
  case aborts => rw [if_neg hsp, if_neg hfull.not_gt]; rfl

/-- Settles O34: the three branches of VALUE. -/
theorem rxAccumulatesValue : Obligations.RxAccumulatesValue := by
  intro byte b7 s hb hf hstop hp
  rw [exec_rx_value hb hf hstop hp, rxValue]
  refine ⟨fun hsp => ?ends, fun hsp hroom => ?appends, fun hsp hfull => ?aborts⟩
  case ends => rw [if_pos hsp]; rfl
  case appends => rw [if_neg hsp, if_pos hroom]; rfl
  case aborts => rw [if_neg hsp, if_neg hfull.not_gt]; rfl

/-- Settles O35: the two branches of CHECKSUM. -/
theorem rxValidatesChecksum : Obligations.RxValidatesChecksum := fun _ _ hf hstop hp =>
  ⟨fun hsum => (exec_rx_checksum hf hstop hp).trans (congrArg Host.Outcome.next (if_pos hsum)),
   fun hsum => (exec_rx_checksum hf hstop hp).trans (congrArg Host.Outcome.next (if_neg hsum))⟩

/-- Settles O36: the two branches of TRAILER. -/
theorem rxDispatchesAtTrailer : Obligations.RxDispatchesAtTrailer := by
  intro byte b7 s hb hf hstop hp
  rw [exec_rx_trailer hb hf hstop hp, rxTrailer]
  refine ⟨fun hcr => ⟨_, rfl, ?dispatches⟩, fun hcr => ?aborts⟩
  case dispatches => rw [if_pos hcr]; rfl
  case aborts => rw [if_neg hcr]; rfl

/-! ### TIMEOUT -/

/-- Settles O37: TIMEOUT of a reading parser is an abort. -/
theorem timeoutAbortsTheFrame : Obligations.TimeoutAbortsTheFrame := fun _ hf hstop hrun =>
  execTimeout_next.2 ⟨hf, hrun, hstop, rfl⟩

end Sys2Proof.Machine
end

section
/-! PROOF. The checksum (O39, O40; 43_parser_framing R172, R177). As a number it is the sum of the bytes modulo 64, so wrap-around at a
width of six bits or more is not seen, nor is a change of one byte by a multiple of 64. -/

namespace Sys2Proof.Machine

variable {L V L' V' : List Byte7}

/-! ### Sums of bytes -/

theorem byteSum_cons (b : Byte7) (bs : List Byte7) : byteSum (b :: bs) = b.toNat + byteSum bs := List.sum_cons

theorem byteSum_append (bs cs : List Byte7) : byteSum (bs ++ cs) = byteSum bs + byteSum cs := by
  rw [byteSum, List.map_append, List.sum_append]; rfl

theorem byteSum_le (bs : List Byte7) : byteSum bs ≤ bs.length * 127 := by
  induction bs with
  | nil => exact Nat.le_refl 0
  | cons b bs ih =>
    have := b.isLt
    rw [byteSum_cons, List.length_cons]
    omega

/-- A sum kept with wrap-around in six bits or more is the sum modulo 64 (43_parser_framing R172). -/
theorem foldl_add_toNat_mod {w : Nat} (hw : 6 ≤ w) (bs : List Byte7) (acc : BitVec w) :
    (bs.foldl (fun acc b => acc + b.setWidth w) acc).toNat % 64 = (acc.toNat + byteSum bs) % 64 := by
  have wrap (n : Nat) : n % 2 ^ w % 64 = n % 64 := Nat.mod_mod_of_dvd n (pow_dvd_pow 2 hw)
  induction bs generalizing acc with
  | nil => rfl
  | cons b bs ih =>
    have step : (acc + b.setWidth w).toNat % 64 = (acc.toNat + b.toNat) % 64 := by
      rw [BitVec.toNat_add, BitVec.toNat_setWidth, wrap, Nat.add_mod, wrap, ← Nat.add_mod]
    rw [List.foldl_cons, ih, byteSum_cons]
    omega

/-! ### The checksum as a number -/

theorem checksum_toNat (L V : List Byte7) : (checksum L V).toNat = (0x20 + byteSum L + byteSum V) % 64 + 0x20 := by
  rw [checksum, BitVec.toNat_ofNat]
  omega

/-- The checksum is a 7-bit byte: the mask of received bytes leaves it as it is (43_parser_framing R163, R172). -/
theorem checksum_and_mask (L V : List Byte7) : checksum L V &&& 0x7F#8 = checksum L V := by
  apply BitVec.eq_of_toNat_eq
  rw [and_mask_toNat, checksum_toNat]
  omega

/-- Two groups have one checksum exactly when their sums agree modulo 64 (43_parser_framing R177). -/
theorem checksum_eq_iff : checksum L V = checksum L' V' ↔ (byteSum L + byteSum V) % 64 = (byteSum L' + byteSum V') % 64 := by
  rw [← BitVec.toNat_inj, checksum_toNat, checksum_toNat]
  omega

/-- The checksum from a sum kept in `w` bits (43_parser_framing R172). -/
theorem checksum_toNat_eq_foldl {w : Nat} (hw : 6 ≤ w) (L V : List Byte7) : (checksum L V).toNat =
    ((L ++ V).foldl (fun (acc : BitVec w) b => acc + b.setWidth w) (BitVec.ofNat w 0x20)).toNat % 64 + 0x20 := by
  have start : 0x20 < 2 ^ w := (by decide : 0x20 < 2 ^ 6).trans_le (Nat.pow_le_pow_right (by decide) hw)
  rw [foldl_add_toNat_mod hw, BitVec.toNat_ofNat, Nat.mod_eq_of_lt start, byteSum_append, checksum_toNat, Nat.add_assoc]

/-- Settles O39: the sum modulo 64, with at most 127 for a byte. -/
theorem checksumIsTheMaskedSum : Obligations.ChecksumIsTheMaskedSum := by
  refine fun L V => ⟨checksum_toNat L V, ?low, ?high, fun w hw => checksum_toNat_eq_foldl hw L V, fun hL hV => ?bound⟩
  case low => rw [checksum_toNat]; omega
  case high => rw [checksum_toNat]; omega
  case bound =>
    have hLsum : byteSum L ≤ L.length * 127 := byteSum_le L
    have hVsum : byteSum V ≤ V.length * 127 := byteSum_le V
    change 0x20 + byteSum L + byteSum V ≤ 2826
    omega

/-- Settles O40: another checksum byte takes the aborting branch; the other bytes' part of the sums cancels. -/
theorem checksumDetectsChangesButMultiplesOf64 : Obligations.ChecksumDetectsChangesButMultiplesOf64 := by
  refine ⟨fun s byte hf hstop hp hne => ?mismatch, fun L₁ L₂ V x y => ?labelByte, fun L V₁ V₂ x y => ?valueByte⟩
  case mismatch =>
    exact ⟨s.abort .checksumMismatch, (exec_rx_checksum hf hstop hp).trans (congrArg Host.Outcome.next (if_neg hne)), rfl, rfl⟩
  case labelByte =>
    rw [checksum_eq_iff, byteSum_append, byteSum_append, byteSum_cons, byteSum_cons]
    omega
  case valueByte =>
    rw [checksum_eq_iff, byteSum_append, byteSum_append, byteSum_cons, byteSum_cons]
    omega

end Sys2Proof.Machine
end

section
/-! PROOF. A whole group (O38; 43_parser_framing R175, 44_field_registry R202). The bytes are masked first, so the group is read as
written. LF, label, SP, value, SP fill the buffers (`ParserEngine.readGroup`), by induction over label and value; the checksum byte and CR
then dispatch what the buffers hold. Dispatch neither reads nor writes the buffers (`State.withBuffers`), so it is Dispatch in the state
before the group. -/

namespace Sys2Proof.Machine

variable {s : State} {e : ParserEngine} {L V : List Byte7}

/-! ### The masked bytes -/

/-- A run of RX does not see bit 7 of any byte (43_parser_framing R163). -/
theorem execAll_rxs_mask (bytes : List Byte) (s : State) : execAll (rxs (bytes.map fun b => b &&& 0x7F#8)) s = execAll (rxs bytes) s := by
  induction bytes generalizing s with
  | nil => rfl
  | cons b bs ih =>
    have masked : exec (.rx (b &&& 0x7F#8)) s = exec (.rx b) s :=
      rxSeesSevenBits s _ _ (by rw [BitVec.and_assoc, BitVec.and_self])
    simp only [rxs, List.map_cons, execAll, masked] at ih ⊢
    cases exec (.rx b) s with
    | next t => exact ih t
    | fault | refused => rfl

/-! ### The label and the value, byte by byte -/

/-- The buffers after the bytes of a label (43_parser_framing R168). -/
def ParserEngine.appendLabelBytes (L : List Byte7) (e : ParserEngine) : ParserEngine := L.foldl (fun e b => e.appendLabel b) e

/-- The buffers after the bytes of a value (43_parser_framing R169). -/
def ParserEngine.appendValueBytes (V : List Byte7) (e : ParserEngine) : ParserEngine := V.foldl (fun e b => e.appendValue b) e

/-- The bytes of a label go to the label buffer and its length alone. -/
theorem appendLabelBytes_frame (L : List Byte7) (e : ParserEngine) :
    e.appendLabelBytes L = { e with lab := (e.appendLabelBytes L).lab, lablen := (e.appendLabelBytes L).lablen } := by
  induction L generalizing e with
  | nil => rfl
  | cons b L ih => exact ih (e.appendLabel b)

/-- The bytes of a value go to the value buffer and its length alone. -/
theorem appendValueBytes_frame (V : List Byte7) (e : ParserEngine) :
    e.appendValueBytes V = { e with val := (e.appendValueBytes V).val, vallen := (e.appendValueBytes V).vallen } := by
  induction V generalizing e with
  | nil => rfl
  | cons b V ih => exact ih (e.appendValue b)

/-- A length that leaves room for one byte and `n` more leaves room for `n` after it. -/
theorem toNat_add_one_add_le {w m n : Nat} {len : BitVec w} (h : len.toNat + (n + 1) ≤ m) : (len + 1#w).toNat + n ≤ m := by
  have : (len + 1#w).toNat ≤ m - n := toNat_add_one_le (by omega)
  omega

theorem appendLabelBytes_label (h : e.lablen.toNat + L.length ≤ e.lab.length) (h7 : e.lab.length ≤ 7) :
    (e.appendLabelBytes L).label = e.label ++ L := by
  induction L generalizing e with
  | nil => exact (List.append_nil _).symm
  | cons b L ih =>
    rw [List.length_cons] at h
    have hlab : (e.appendLabel b).lab.length = e.lab.length := List.length_set
    calc (e.appendLabelBytes (b :: L)).label
        = (e.appendLabel b).label ++ L := ih (hlab ▸ toNat_add_one_add_le h) (hlab ▸ h7)
      _ = e.label ++ b :: L := by rw [appendLabel_label (by omega) (by omega), List.append_assoc, List.singleton_append]

theorem appendValueBytes_value (h : e.vallen.toNat + V.length ≤ e.val.length) (h15 : e.val.length ≤ 15) :
    (e.appendValueBytes V).value = e.value ++ V := by
  induction V generalizing e with
  | nil => exact (List.append_nil _).symm
  | cons b V ih =>
    rw [List.length_cons] at h
    have hval : (e.appendValue b).val.length = e.val.length := List.length_set
    calc (e.appendValueBytes (b :: V)).value
        = (e.appendValue b).value ++ V := ih (hval ▸ toNat_add_one_add_le h) (hval ▸ h15)
      _ = e.value ++ b :: V := by rw [appendValue_value (by omega) (by omega), List.append_assoc, List.singleton_append]

/-- A label within its bound is read to its last byte, and SP ends it (43_parser_framing R168). -/
theorem execAll_rxs_label (hf : s.fault = none) (hstop : s.ps.stopReq = false) (hp : s.ps.pstate = .label) (hL : noSpaces L)
    (hroom : s.ps.lablen.toNat + L.length ≤ s.params.labelMax.val) :
    execAll (rxs ((L ++ [Config.SP]).map widen)) s = .next { s with ps := { s.ps.appendLabelBytes L with pstate := .value } } := by
  induction L generalizing s with
  | nil =>
    have space : exec (.rx (widen Config.SP)) s = .next (s.goto .value) := by
      rw [exec_rx_label (widen_and_mask _) hf hstop hp, rxLabel, if_pos rfl]
    exact execAll_cons_of_next space (execAll_nil _)
  | cons b L ih =>
    obtain ⟨hb, hL⟩ := List.forall_mem_cons.1 hL
    rw [List.length_cons] at hroom
    have first : exec (.rx (widen b)) s = .next { s with ps := s.ps.appendLabel b } := by
      rw [exec_rx_label (widen_and_mask b) hf hstop hp, rxLabel, if_neg hb, if_pos (by omega)]
    exact execAll_cons_of_next first (ih hf hstop hp hL (toNat_add_one_add_le hroom))

/-- A value within its bound is read to its last byte, and SP ends it (43_parser_framing R169). -/
theorem execAll_rxs_value (hf : s.fault = none) (hstop : s.ps.stopReq = false) (hp : s.ps.pstate = .value) (hV : noSpaces V)
    (hroom : s.ps.vallen.toNat + V.length ≤ s.params.valueMax.val) :
    execAll (rxs ((V ++ [Config.SP]).map widen)) s = .next { s with ps := { s.ps.appendValueBytes V with pstate := .checksum } } := by
  induction V generalizing s with
  | nil =>
    have space : exec (.rx (widen Config.SP)) s = .next (s.goto .checksum) := by
      rw [exec_rx_value (widen_and_mask _) hf hstop hp, rxValue, if_pos rfl]
    exact execAll_cons_of_next space (execAll_nil _)
  | cons b V ih =>
    obtain ⟨hb, hV⟩ := List.forall_mem_cons.1 hV
    rw [List.length_cons] at hroom
    have first : exec (.rx (widen b)) s = .next { s with ps := s.ps.appendValue b } := by
      rw [exec_rx_value (widen_and_mask b) hf hstop hp, rxValue, if_neg hb, if_pos (by omega)]
    exact execAll_cons_of_next first (ih hf hstop hp hV (toNat_add_one_add_le hroom))

/-! ### The group up to its checksum -/

/-- The parser engine after LF (43_parser_framing R167). -/
def ParserEngine.newGroup (e : ParserEngine) : ParserEngine := { e with lablen := 0#3, vallen := 0#4, pstate := .label }

/-- The parser engine after LF, label and SP. -/
def ParserEngine.readLabel (L : List Byte7) (e : ParserEngine) : ParserEngine :=
  { e.newGroup.appendLabelBytes L with pstate := .value }

/-- The parser engine after LF, label, SP, value and SP. -/
def ParserEngine.readGroup (L V : List Byte7) (e : ParserEngine) : ParserEngine :=
  { (e.readLabel L).appendValueBytes V with pstate := .checksum }

/-- Reading a label writes the label buffer and restarts both lengths. -/
theorem readLabel_frame (L : List Byte7) (e : ParserEngine) : e.readLabel L =
    { e with pstate := .value, lab := (e.readLabel L).lab, lablen := (e.readLabel L).lablen, vallen := 0#4 } := by
  unfold ParserEngine.readLabel
  rw [appendLabelBytes_frame]
  rfl

/-- Reading a group writes the two buffers, and the label buffer only while the label is read. -/
theorem readGroup_frame (L V : List Byte7) (e : ParserEngine) : e.readGroup L V =
    { e with pstate := .checksum, lab := (e.readLabel L).lab, lablen := (e.readLabel L).lablen,
             val := (e.readGroup L V).val, vallen := (e.readGroup L V).vallen } := by
  unfold ParserEngine.readGroup
  rw [appendValueBytes_frame, readLabel_frame]

theorem readGroup_label (hL : L.length ≤ e.lab.length) (h7 : e.lab.length ≤ 7) : (e.readGroup L V).label = L := by
  rw [readGroup_frame]
  exact appendLabelBytes_label (e := e.newGroup) ((Nat.zero_add _).trans_le hL) h7

theorem readGroup_value (hV : V.length ≤ e.val.length) (h15 : e.val.length ≤ 15) : (e.readGroup L V).value = V := by
  have read : ((e.readLabel L).appendValueBytes V).value = (e.readLabel L).value ++ V := by
    rw [readLabel_frame]
    exact appendValueBytes_value ((Nat.zero_add _).trans_le hV) h15
  have empty : (e.readLabel L).value = [] := by rw [readLabel_frame]; rfl
  rwa [empty] at read

/-- From GROUPS the machine reads LF, label, SP, value and SP (43_parser_framing R167 to R169). -/
theorem execAll_rxs_fields (hf : s.fault = none) (hstop : s.ps.stopReq = false) (hp : s.ps.pstate = .groups) (hL : noSpaces L)
    (hV : noSpaces V) (hLlen : L.length ≤ s.params.labelMax.val) (hVlen : V.length ≤ s.params.valueMax.val) :
    execAll (.rx (widen Config.LF) :: (rxs ((L ++ [Config.SP]).map widen) ++ rxs ((V ++ [Config.SP]).map widen))) s =
      .next { s with ps := s.ps.readGroup L V } := by
  have lf : exec (.rx (widen Config.LF)) s = .next { s with ps := s.ps.newGroup } :=
    (exec_rx_groups (widen_and_mask _) hf hstop hp).trans (congrArg Host.Outcome.next (if_pos rfl))
  have label : execAll (rxs ((L ++ [Config.SP]).map widen)) { s with ps := s.ps.newGroup } = .next { s with ps := s.ps.readLabel L } :=
    execAll_rxs_label (s := { s with ps := s.ps.newGroup }) hf hstop rfl hL ((Nat.zero_add _).trans_le hLlen)
  have value : execAll (rxs ((V ++ [Config.SP]).map widen)) { s with ps := s.ps.readLabel L } =
      .next { s with ps := s.ps.readGroup L V } := by
    refine execAll_rxs_value (s := { s with ps := s.ps.readLabel L }) hf ?_ rfl hV ?_ <;> rw [readLabel_frame]
    · exact hstop
    · exact (Nat.zero_add _).trans_le hVlen
  exact execAll_cons_of_next lf (execAll_append_of_next label value)

/-! ### The checksum and the dispatch -/

/-- From CHECKSUM the computed checksum and CR dispatch the group read (43_parser_framing R170, R171). -/
theorem execAll_rxs_checksum_cr (hf : s.fault = none) (hstop : s.ps.stopReq = false) (hp : s.ps.pstate = .checksum)
    (hL : s.ps.label = L) (hV : s.ps.value = V) :
    execAll (rxs [checksum L V, widen Config.CR]) s = .next ((dispatch L V (s.goto .trailer)).goto .groups) := by
  subst hL hV
  have sum : exec (.rx (checksum s.ps.label s.ps.value)) s = .next (s.goto .trailer) :=
    (exec_rx_checksum hf hstop hp).trans (congrArg Host.Outcome.next (if_pos (checksum_and_mask _ _)))
  have cr : exec (.rx (widen Config.CR)) (s.goto .trailer) =
      .next ((dispatch s.ps.label s.ps.value (s.goto .trailer)).goto .groups) :=
    (exec_rx_trailer (s := s.goto .trailer) (widen_and_mask _) hf hstop rfl).trans (congrArg Host.Outcome.next (if_pos rfl))
  exact execAll_cons_of_next sum (execAll_cons_of_next cr (execAll_nil _))

/-- The state with the framing state and the buffers of `e` (10_state R35 to R37). -/
def State.withBuffers (e : ParserEngine) (s : State) : State :=
  { s with ps := { s.ps with pstate := e.pstate, lab := e.lab, lablen := e.lablen, val := e.val, vallen := e.vallen } }

/-- Dispatch is given the label and the value; it neither reads nor writes the buffers (44_field_registry R202). -/
theorem dispatch_withBuffers (L V : List Byte7) (e : ParserEngine) (s : State) :
    dispatch L V (s.withBuffers e) = (dispatch L V s).withBuffers e := by
  have params : (s.withBuffers e).params = s.params := rfl
  unfold dispatch
  rw [params]
  cases findField s.params.registry L with
  | none => rfl
  | some row =>
    obtain ⟨fid, kind⟩ := row
    dsimp only
    cases decodeField kind V with
    | none => rfl
    | some d => exact ite_eq_apply (State.withBuffers e) rfl (ite_eq_apply (State.withBuffers e) rfl rfl)

/-- The events of a group: LF and the two fields, then the checksum and CR (43_parser_framing R175). -/
theorem rxs_groupBytes (L V : List Byte7) : rxs (groupBytes L V) =
    (.rx (widen Config.LF) :: (rxs ((L ++ [Config.SP]).map widen) ++ rxs ((V ++ [Config.SP]).map widen))) ++
      rxs [checksum L V, widen Config.CR] := by
  simp [groupBytes, rxs]

/-- Settles O38: the run of the masked bytes ends in Dispatch of the label and value read, in a state that differs from the first in
what Dispatch leaves alone. -/
theorem wellFormedGroupIsDispatched : Obligations.WellFormedGroupIsDispatched := by
  intro s L V bytes hf hinv hstop hp hLlen hVlen hL hV hbytes
  obtain ⟨hlab, hval⟩ := hinv.sizes
  have label : (s.ps.readGroup L V).label = L := readGroup_label (by omega) (by omega)
  have value : (s.ps.readGroup L V).value = V := readGroup_value (by omega) (by omega)
  have running : (s.ps.readGroup L V).stopReq = false := by rw [readGroup_frame]; exact hstop
  have buffers : ({ s with ps := s.ps.readGroup L V } : State).goto .trailer =
      s.withBuffers { s.ps.readGroup L V with pstate := .trailer } := by rw [readGroup_frame]; rfl
  have run : execAll (rxs bytes) s =
      .next (((dispatch L V s).withBuffers { s.ps.readGroup L V with pstate := .trailer }).goto .groups) := by
    rw [← execAll_rxs_mask, hbytes, rxs_groupBytes, ← dispatch_withBuffers, ← buffers]
    exact execAll_append_of_next (execAll_rxs_fields hf hstop hp hL hV hLlen hVlen)
      (execAll_rxs_checksum_cr (s := { s with ps := s.ps.readGroup L V }) hf running rfl label value)
  exact ⟨_, run, label, value, rfl⟩

end Sys2Proof.Machine
end

section
/-! PROOF. A step with nothing presented (O9; 43_parser_framing R164, 60_exceptions R244). That such a step waits, or takes PSTOP, is the
model's choice (log entries 1, 2, 3, 12). -/

namespace Sys2Proof.Machine

variable {s : State}

/-- A port with no word to take leaves the block its own step PSTOP (43_parser_framing R164; log entry 2). -/
theorem step_of_takeWord_none (hport : s.held = none ∨ s.tx.busy = true) (hw : takeWord s.held.isSome s.port = none) :
    step s = if s.pstopEnabled then exec .pstop s else .next s := by
  rw [step, fetch_eq_fetchPort hport, fetchPort, hw]
  cases s.pstopEnabled <;> rfl

/-- Settles O9: an empty port has no word, and a port of the foreground's words has none while the foreground waits. -/
theorem stepWithNothingPresented : Obligations.StepWithNothingPresented := by
  intro s h
  have nothing : step s = if s.pstopEnabled then exec .pstop s else .next s := by
    obtain ⟨hheld, hport⟩ | ⟨hheld, hbusy, hport⟩ := h
    · exact step_of_takeWord_none (.inl hheld) (by rw [hport]; rfl)
    · refine step_of_takeWord_none (.inr hbusy) ?_
      rw [Option.isSome_iff_ne_none.2 hheld]
      exact takeWord_of_foreground fun x hx => (foregroundWord_eq_true_iff x).2 (hport x hx)
  exact ⟨fun hoff => by rw [nothing, hoff, if_neg Bool.false_ne_true], fun hon => by rw [nothing, hon, if_pos rfl]⟩

end Sys2Proof.Machine
end

section
/-! PROOF. Looking a label up and decoding a value (O43 to O46; 44_field_registry R203 to R207, R213). Look-up scans the rows from a row
number on; a number is its decimal digits in base ten; removing trailing dots leaves exactly the name they follow. -/

namespace Sys2Proof.Machine

/-! ### Look-up -/

variable {L : List Byte7} {rows : List RegistryRow} {row : RegistryRow} {m k : Nat}

theorem findFieldFrom_eq_none_iff : findFieldFrom L m rows = none ↔ ∀ row ∈ rows, row.label ≠ L := by
  induction rows generalizing m with
  | nil => exact iff_of_true rfl nofun
  | cons r rs ih =>
    rw [findFieldFrom, List.forall_mem_cons]
    by_cases hr : r.label = L
    · rw [if_pos hr]; exact iff_of_false nofun fun h => h.1 hr
    · rw [if_neg hr, ih]; exact (and_iff_right hr).symm

/-- Among distinct labels the scan passes every row but the one looked for (44_field_registry R203). -/
theorem findFieldFrom_label (hd : distinctLabels rows = true) (hrow : rows[k]? = some row) :
    findFieldFrom row.label m rows = some (m + k, row.kind) := by
  induction rows generalizing m k with
  | nil => cases hrow
  | cons r rs ih =>
    rw [distinctLabels, Bool.and_eq_true, List.all_eq_true] at hd
    obtain ⟨hfirst, hrest⟩ := hd
    cases k with
    | zero =>
      obtain rfl : r = row := Option.some.inj hrow
      exact if_pos rfl
    | succ k =>
      have later : rs[k]? = some row := hrow
      have other : r.label ≠ row.label := fun h => bne_iff_ne.1 (hfirst row (List.mem_of_getElem? later)) h.symm
      rw [findFieldFrom, if_neg other, ih hrest later, Nat.add_right_comm, Nat.add_assoc]

/-- Settles O43: a row found stands in the table, and with distinct labels it is the one found. -/
theorem lookupFindsExactlyTheRow : Obligations.LookupFindsExactlyTheRow := by
  refine fun registry L hd => ⟨fun n kind => ⟨findField_eq_some, ?found⟩, findFieldFrom_eq_none_iff⟩
  rintro ⟨row, hrow, rfl, rfl⟩
  exact (findFieldFrom_label hd hrow).trans (by rw [Nat.zero_add])

/-! ### Decimal numbers -/

variable {V : List Byte7} {b : Byte7}

/-- The number a digit byte stands for (44_field_registry R205). -/
def digitOf (b : Byte7) : Nat := b.toNat - 0x30

/-- The byte that stands for a digit (44_field_registry R205). -/
def digitByte (d : Nat) : Byte7 := BitVec.ofNat 7 (0x30 + d)

/-- The number the digits of a value write in base ten, most significant first (44_field_registry R205). -/
def decimalOf (V : List Byte7) : Nat := Nat.ofDigits 10 (V.reverse.map digitOf)

theorem isDigit_iff : isDigit b = true ↔ 0x30 ≤ b.toNat ∧ b.toNat ≤ 0x39 := by
  rw [isDigit, Bool.and_eq_true, decide_eq_true_iff, decide_eq_true_iff]

theorem digitByte_toNat {d : Nat} (h : d < 10) : (digitByte d).toNat = 0x30 + d := by
  rw [digitByte, BitVec.toNat_ofNat]
  omega

theorem isDigit_digitByte {d : Nat} (h : d < 10) : isDigit (digitByte d) = true := by
  rw [isDigit_iff, digitByte_toNat h]
  omega

theorem digitOf_digitByte {d : Nat} (h : d < 10) : digitOf (digitByte d) = d := by
  rw [digitOf, digitByte_toNat h, Nat.add_sub_cancel_left]

theorem digitOf_lt_ten (h : isDigit b = true) : digitOf b < 10 := by
  rw [isDigit_iff] at h
  rw [digitOf]
  omega

/-- One digit read: stated here because the equation that Lean generates for `digitsValue` is too costly. -/
theorem digitsValue_cons (n : Nat) (b : Byte7) (V : List Byte7) :
    digitsValue n (b :: V) = digitsValue (n * 10 + digitOf b) V := (rfl)

/-- The digits read on from a number are its less significant ones. -/
theorem digitsValue_ofDigits (V : List Byte7) (ds : List Nat) :
    digitsValue (Nat.ofDigits 10 ds) V = Nat.ofDigits 10 (V.reverse.map digitOf ++ ds) := by
  induction V generalizing ds with
  | nil => rfl
  | cons b V ih =>
    have next : Nat.ofDigits 10 ds * 10 + digitOf b = Nat.ofDigits 10 (digitOf b :: ds) := by
      rw [Nat.ofDigits_cons, Nat.mul_comm, Nat.add_comm]
    rw [digitsValue_cons, next, ih, List.reverse_cons, List.map_append, List.map_singleton, List.append_assoc, List.singleton_append]

theorem digitsValue_zero (V : List Byte7) : digitsValue 0 V = decimalOf V := by
  have fromNone := digitsValue_ofDigits V []
  rwa [Nat.ofDigits_nil, List.append_nil] at fromNone

/-- A uint is a non-empty string of digits and the number they write (44_field_registry R205). -/
theorem decodeUint_eq_some_iff {n : BitVec 64} :
    decodeUint V = some n ↔ (V ≠ [] ∧ ∀ b ∈ V, isDigit b = true) ∧ BitVec.ofNat 64 (decimalOf V) = n := by
  rw [decodeUint, digitsValue_zero, ← List.all_eq_true]
  by_cases hne : V = []
  · simp [hne]
  · by_cases hd : V.all isDigit = true <;> simp [hne, hd]

/-- A number of `n` digits is below `10 ^ n`. -/
theorem decimalOf_lt (hd : ∀ b ∈ V, isDigit b = true) : decimalOf V < 10 ^ V.length := by
  have digits : ∀ d ∈ V.reverse.map digitOf, d < 10 :=
    List.forall_mem_map.2 fun b hb => digitOf_lt_ten (hd b (List.mem_reverse.1 hb))
  simpa only [decimalOf, List.length_map, List.length_reverse] using Nat.ofDigits_lt_base_pow_length (by decide) digits

/-- Settles O44: fifteen digits write a number below 10^15, which 64 bits hold; a leading zero leaves the sum so far at zero. -/
theorem uintDecodesDecimalDigits : Obligations.UintDecodesDecimalDigits := by
  refine ⟨fun V => ?shape, fun V n hlen h => ?value, fun V hne => ?leadingZero⟩
  case shape => simp only [decodeUint_eq_some_iff, isDigit_iff, exists_and_left, exists_eq', and_true]
  case value =>
    obtain ⟨⟨-, hd⟩, rfl⟩ := decodeUint_eq_some_iff.1 h
    have below : decimalOf V < 10 ^ 15 := (decimalOf_lt hd).trans_le (Nat.pow_le_pow_right (by decide) hlen)
    have held : (BitVec.ofNat 64 (decimalOf V)).toNat = decimalOf V := Nat.mod_eq_of_lt (below.trans (by decide))
    exact ⟨held, held.trans_lt below⟩
  case leadingZero =>
    have sameDigits : (0x30#7 :: V).all isDigit = V.all isDigit := rfl
    have sameValue : digitsValue 0 (0x30#7 :: V) = digitsValue 0 V := rfl
    rw [decodeUint, if_neg (List.cons_ne_nil _ _), sameDigits, sameValue, decodeUint, if_neg hne]

/-- The digit bytes of a number write that number. -/
theorem decimalOf_digits (n : Nat) : decimalOf ((Nat.digits 10 n).reverse.map digitByte) = n := by
  have back : ∀ d ∈ Nat.digits 10 n, (digitOf ∘ digitByte) d = id d := fun d hd =>
    digitOf_digitByte (Nat.digits_lt_base (by decide) hd)
  rw [decimalOf, ← List.map_reverse, List.reverse_reverse, List.map_map, List.map_congr_left back, List.map_id,
    Nat.ofDigits_digits]

/-- Settles O45: the digits of a number are digit bytes, and read back they write the number. -/
theorem uintRoundTrip : Obligations.UintRoundTrip := by
  refine ⟨fun n _ hn => ?_, rfl⟩
  have nonempty : (Nat.digits 10 n).reverse.map digitByte ≠ [] := by simpa [Nat.digits_eq_nil_iff_eq_zero] using hn
  have digits : ∀ b ∈ (Nat.digits 10 n).reverse.map digitByte, isDigit b = true :=
    List.forall_mem_map.2 fun d hd => isDigit_digitByte (Nat.digits_lt_base (by decide) (List.mem_reverse.1 hd))
  have decoded := decodeUint_eq_some_iff.2 ⟨⟨nonempty, digits⟩, rfl⟩
  rw [decimalOf_digits] at decoded
  exact congrArg (Option.map FieldValue.uint) decoded

/-! ### Enumerators -/

variable {N : List Byte7}

theorem stripDots_dots (k : Nat) : stripDots (List.replicate k 0x2E#7) = [] := by
  induction k with
  | zero => rfl
  | succ k ih => exact if_pos ⟨ih, rfl⟩

theorem stripDots_append_dots (N : List Byte7) (k : Nat) : stripDots (N ++ List.replicate k 0x2E#7) = stripDots N := by
  induction N with
  | nil => exact stripDots_dots k
  | cons b N ih => rw [List.cons_append, stripDots, stripDots, ih]

/-- What is removed from a value is dots alone (44_field_registry R206, R207). -/
theorem exists_eq_stripDots_append (V : List Byte7) : ∃ k, V = stripDots V ++ List.replicate k 0x2E#7 := by
  induction V with
  | nil => exact ⟨0, rfl⟩
  | cons b V ih =>
    obtain ⟨k, hk⟩ := ih
    by_cases hdot : stripDots V = [] ∧ b = 0x2E#7
    · obtain ⟨hV, rfl⟩ := hdot
      rw [hV] at hk
      exact ⟨k + 1, by rw [stripDots, if_pos ⟨hV, rfl⟩, hk]; rfl⟩
    · exact ⟨k, by rw [stripDots, if_neg hdot]; exact congrArg (b :: ·) hk⟩

/-- Without its trailing dots a value is a name with no trailing dot exactly when it is that name followed by dots. -/
theorem stripDots_eq_iff (hN : stripDots N = N) : stripDots V = N ↔ ∃ k, V = N ++ List.replicate k 0x2E#7 := by
  constructor
  · rintro rfl
    exact exists_eq_stripDots_append V
  · rintro ⟨k, rfl⟩
    rw [stripDots_append_dots, hN]

/-- The names of the tariff options (44_field_registry R206). -/
def Optarif.name : Optarif → List Byte7
  | .BASE => Config.ascii ['B', 'A', 'S', 'E']
  | .HC => Config.ascii ['H', 'C']
  | .EJP => Config.ascii ['E', 'J', 'P']

/-- The names of the tariff periods (44_field_registry R207). -/
def Ptec.name : Ptec → List Byte7
  | .TH => Config.ascii ['T', 'H']
  | .HC => Config.ascii ['H', 'C']
  | .HP => Config.ascii ['H', 'P']
  | .HN => Config.ascii ['H', 'N']
  | .PM => Config.ascii ['P', 'M']

theorem decodeOptarif_eq_some_iff {o : Optarif} : decodeOptarif V = some o ↔ stripDots V = o.name := by
  constructor
  · unfold decodeOptarif
    split_ifs <;> rintro ⟨⟩ <;> assumption
  · intro h
    rw [decodeOptarif, h]
    cases o <;> rfl

theorem decodePtec_eq_some_iff {p : Ptec} : decodePtec V = some p ↔ stripDots V = p.name := by
  constructor
  · unfold decodePtec
    split_ifs <;> rintro ⟨⟩ <;> assumption
  · intro h
    rw [decodePtec, h]
    cases p <;> rfl

theorem Optarif.stripDots_name (o : Optarif) : stripDots o.name = o.name := by cases o <;> rfl

theorem Ptec.stripDots_name (p : Ptec) : stripDots p.name = p.name := by cases p <;> rfl

/-- Settles O46: the decoders compare a value without its trailing dots with the names, none of which ends in a dot. -/
theorem namesDecodeWithTrailingDots : Obligations.NamesDecodeWithTrailingDots := by
  refine ⟨fun _ => rfl, fun V o => ?optarif, fun V p => ?ptec, rfl, rfl, rfl, rfl, rfl, rfl, rfl, rfl⟩
  case optarif => exact decodeOptarif_eq_some_iff.trans (stripDots_eq_iff o.stripDots_name)
  case ptec => exact decodePtec_eq_some_iff.trans (stripDots_eq_iff p.stripDots_name)

end Sys2Proof.Machine
end

section
/-! PROOF. The listener, Dispatch and the notifications (O41, O42, O47; 44_field_registry R200 to R202, R208 to R212). An event either
leaves store and notifications alone or is the CR that stores one changed field (`StoresField`); that field's cell held something else. -/

namespace Sys2Proof.Machine

variable {i : Instr} {s t : State} {fid : Nat} {d : FieldValue} {cell : Cell}

/-- Settles O41: the two cases of REGL and the one of UNREGL. -/
theorem oneListenerAtATime : Obligations.OneListenerAtATime := fun _ hf =>
  ⟨fun free => execRegl_next.2 ⟨hf, .inr ⟨free, rfl⟩⟩, fun taken => execRegl_next.2 ⟨hf, .inl ⟨taken, rfl⟩⟩,
   execUnregl_next.2 ⟨hf, rfl⟩⟩

/-! ### Dispatch -/

/-- A value is held where the row's cell is valid and equal to it (44_field_registry R208). -/
theorem holdsField_eq_true_iff (hcell : s.ps.store[fid]? = some cell) :
    s.holdsField fid d = true ↔ cell.valid = true ∧ cell.value = d := by
  have found : s.ps.cell fid d.kind = cell := by rw [ParserEngine.cell, List.getD_eq_getElem?_getD, hcell, Option.getD_some]
  rw [State.holdsField, found, Bool.and_eq_true, beq_iff_eq]

/-- A value differs from the stored one where the row's cell is invalid or holds another (44_field_registry R208). -/
theorem holdsField_eq_false_iff (hcell : s.ps.store[fid]? = some cell) :
    s.holdsField fid d = false ↔ cell.valid = false ∨ cell.value ≠ d := by
  rw [← Bool.not_eq_true, holdsField_eq_true_iff hcell, not_and_or, Bool.not_eq_true]

/-- Dispatch of a known label and a value of its kind stores and notifies a change, and does nothing else (44_field_registry R202). -/
theorem dispatch_of_decoded {L V : List Byte7} {kind : Kind} (hrow : findField s.params.registry L = some (fid, kind))
    (hd : decodeField kind V = some d) :
    dispatch L V s = if s.holdsField fid d then s else (s.setField fid d).notifyChange fid kind d := by
  simp only [dispatch, hrow, hd]

/-- Storing a field and telling the listener, written out (44_field_registry R202, R212). -/
theorem setField_notifyChange (kind : Kind) : (s.setField fid d).notifyChange fid kind d = { s with
    ps := { s.ps with store := s.ps.store.set fid { valid := true, value := d } }
    notifyLog := if s.ps.listener then s.notifyLog ++ [{ fid := fid, kind := kind, value := d }] else s.notifyLog } := by
  have listener : (s.setField fid d).ps.listener = s.ps.listener := rfl
  rw [State.notifyChange, listener]
  split <;> rfl

/-- Settles O42: the branches of Dispatch; the last two are told apart by what the cell holds. -/
theorem dispatchStoresAndNotifiesChanges : Obligations.DispatchStoresAndNotifiesChanges := by
  refine fun L V s => ⟨fun hrow => ?unknown, fun fid kind hrow hd => ?undecodable, fun fid kind d cell hrow hd hcell =>
    ⟨fun hvalid hsame => ?unchanged, fun hchange => ?changed⟩⟩
  case unknown => rw [dispatch, hrow]; rfl
  case undecodable => simp only [dispatch, hrow, hd]; rfl
  case unchanged => rw [dispatch_of_decoded hrow hd, if_pos ((holdsField_eq_true_iff hcell).2 ⟨hvalid, hsame⟩)]
  case changed =>
    rw [dispatch_of_decoded hrow hd, (holdsField_eq_false_iff hcell).2 hchange, if_neg Bool.false_ne_true, setField_notifyChange]

/-! ### Which event stores a field -/

/-- Event `i` is the CR of an accepted group whose decoded field, as the record `r`, was not held: it is stored, and a listener hears of
it (43_parser_framing R171, 44_field_registry R208, R212). -/
structure StoresField (i : Instr) (s t : State) (r : FieldChanged) : Prop where
  cr : ∃ byte, i = .rx byte ∧ mask7 byte = Config.CR
  trailer : s.ps.pstate = .trailer
  row : findField s.params.registry s.ps.label = some (r.fid, r.kind)
  decoded : decodeField r.kind s.ps.value = some r.value
  changed : s.holdsField r.fid r.value = false
  store : t.ps.store = s.ps.store.set r.fid { valid := true, value := r.value }
  notifyLog : t.notifyLog = if s.ps.listener then s.notifyLog ++ [r] else s.notifyLog

/-- A byte stores one changed field, or leaves store and notifications alone. -/
theorem rxByte_storesField (byte : Byte) :
    ((rxByte (mask7 byte) s).ps.store = s.ps.store ∧ (rxByte (mask7 byte) s).notifyLog = s.notifyLog) ∨
      ∃ r, StoresField (.rx byte) s (rxByte (mask7 byte) s) r := by
  obtain h | ⟨_, _, _, _, h⟩ | h | h | ⟨_, h⟩ | ⟨_, h⟩ | ⟨_, _, _, h⟩ | ⟨_, _, _, h⟩ | ⟨trailer, cr, h⟩ :=
    rxByte_cases (mask7 byte) s <;> rw [h]
  on_goal 9 =>
    obtain ⟨_, hd⟩ | hd | ⟨fid, kind, d, row, decoded, changed, hd⟩ := dispatch_cases s.ps.label s.ps.value s <;> rw [hd]
    on_goal 3 =>
      exact .inr ⟨⟨fid, kind, d⟩, ⟨byte, rfl, cr⟩, trailer, row, decoded, changed, by simp,
        State.notifyChange_notifyLog ..⟩
  all_goals exact .inl ⟨rfl, rfl⟩

/-- An event stores one changed field, or leaves store and notifications alone. -/
theorem exec_storesField (h : exec i s = .next t) :
    (t.ps.store = s.ps.store ∧ t.notifyLog = s.notifyLog) ∨ ∃ r, StoresField i s t r := by
  by_cases hrx : ∃ byte, i = .rx byte
  · obtain ⟨byte, rfl⟩ := hrx
    obtain ⟨-, -, -, rfl⟩ := execRx_next.1 h
    exact rxByte_storesField byte
  · exact .inl ⟨by_contra fun hne => hrx ((exec_parserMove h).store_writer hne).2,
      by_contra fun hne => hrx ((exec_outputs h).notifyLog.writer_of_ne hne)⟩

/-- The field stored has a cell, which was invalid or held another value (10_state R40, 44_field_registry R208). -/
theorem StoresField.old {r : FieldChanged} (h : StoresField i s t r) (hs : StoreInv s) :
    ∃ old, s.ps.store[r.fid]? = some old ∧ (old.valid = false ∨ old.value ≠ r.value) := by
  obtain ⟨row, hrow, -, -⟩ := findField_eq_some h.row
  have inTable : r.fid < s.ps.store.length := hs.sameLength ▸ (List.getElem?_eq_some_iff.1 hrow).1
  have hcell := List.getElem?_eq_getElem inTable
  exact ⟨_, hcell, (holdsField_eq_false_iff hcell).1 h.changed⟩

/-- Storing a changed field changes the store. -/
theorem StoresField.store_ne {r : FieldChanged} (h : StoresField i s t r) (hs : StoreInv s) : t.ps.store ≠ s.ps.store := by
  obtain ⟨old, hold, hchange⟩ := h.old hs
  intro same
  have new : s.ps.store[r.fid]? = some { valid := true, value := r.value } := by
    rw [← same, h.store]
    exact List.getElem?_set_self (List.getElem?_eq_some_iff.1 hold).1
  obtain rfl := Option.some.inj (hold.symm.trans new)
  exact hchange.elim nofun fun hne => hne rfl

/-- Settles O47: an event that stores no field changes neither, and one that does changes the store and, with a listener, the log. -/
theorem notifiesExactlyTheChanges : Obligations.NotifiesExactlyTheChanges := by
  intro i s t hs h
  obtain ⟨store, log⟩ | ⟨r, hr⟩ := exec_storesField h
  · exact ⟨fun hne => absurd store hne, iff_of_false (fun hne => hne log) (fun hne => hne.1 store), fun hne => absurd store hne⟩
  · refine ⟨fun _ => ⟨hr.cr, hr.trailer⟩, ?notified, fun _ hl => ?record⟩
    case notified =>
      rw [hr.notifyLog, and_iff_right (hr.store_ne hs)]
      cases s.ps.listener <;> simp
    case record =>
      obtain ⟨old, hold, hchange⟩ := hr.old hs
      exact ⟨r, old, hr.notifyLog.trans (if_pos hl), hold, hchange, decodeField_kind hr.decoded, hr.store⟩

end Sys2Proof.Machine
end

section
/-! PROOF. The fatal latch (O48, O49; 60_exceptions R231, R238, R243). A fatal fault ends every meaning before its first case, so a halted
block can only wait; and only three meanings have a case that raises one. -/

namespace Sys2Proof.Machine

variable {s t : State}

/-! ### The halted block -/

/-- The first fatal code stays (60_exceptions R238). -/
theorem raiseFatal_of_halted (h : s.fault ≠ none) (c : FatalCode) : raiseFatal c s = .next s := by
  obtain ⟨first, hf⟩ := Option.ne_none_iff_exists'.1 h
  rw [raiseFatal, State.latch, hf]

/-- Whatever a halted block's fetch yields is refused, so the only step that it answers is waiting (60_exceptions R238, R243). -/
theorem step_of_halted_eq (hf : s.fault ≠ none) (h : step s = .next t) : t = s := by
  obtain ⟨-, rfl⟩ | ⟨i, s', hfetch, he⟩ := step_next h
  case inl => rfl
  case inr =>
    obtain ⟨hd, pt, rfl, -⟩ := fetch_eq_event hfetch
    have refused := exec_of_halted (s := { s with held := hd, port := pt }) hf i
    cases refused.symm.trans he

/-- Settles O48: the latch keeps what it holds, and the halted test stands before every event's meaning. -/
theorem fatalFaultHaltsTheBlock : Obligations.FatalFaultHaltsTheBlock :=
  ⟨fun c _ h => raiseFatal_of_running h c, fun c _ h => raiseFatal_of_halted h c, fun i _ h => exec_of_halted h i,
   fun _ _ => step_of_halted_eq, State.applyReset_fault⟩

/-! ### The three causes -/

/-- A TICK that moves the latch found the cursor above 9 (41_tx_bit_engine R125). -/
theorem execTick_of_fault_ne (h : execTick s = .next t) (hne : t.fault ≠ s.fault) :
    s.fault = none ∧ s.tx.timerRun = true ∧ 9#4 < s.tx.cursor ∧ t = { s with fault := some .cursorRange } := by
  obtain ⟨hf, ht, hcases⟩ := execTick_next.1 h
  obtain ⟨-, rfl⟩ | ⟨-, rfl⟩ | ⟨-, -, rfl⟩ | ⟨-, -, rfl⟩ | ⟨hc, rfl⟩ := (tickCases_next hf).1 hcases
  on_goal 5 => exact ⟨hf, ht, hc, rfl⟩
  all_goals exact absurd (State.answer_fault _ s) hne

/-- A REGL that moves the latch found a listener (44_field_registry R200). -/
theorem execRegl_of_fault_ne (h : execRegl s = .next t) (hne : t.fault ≠ s.fault) :
    s.fault = none ∧ s.ps.listener = true ∧ t = { s with fault := some .doubleListener } := by
  obtain ⟨hf, hfatal | ⟨-, rfl⟩⟩ := execRegl_next.1 h
  · exact ⟨hf, hfatal⟩
  · exact absurd rfl hne

/-- A BEGIN that moves the latch found the engine begun (40_tx_host_commands R101). -/
theorem execBegin_of_fault_ne {baud : Baud} {pin : Pin} (h : execBegin baud pin s = .next t) (hne : t.fault ≠ s.fault) :
    s.fault = none ∧ s.tx.begun = true ∧ t = { s with fault := some .timerBinding } := by
  obtain ⟨hf, hfatal | ⟨-, -, -, rfl⟩⟩ := execBegin_next.1 h
  · exact ⟨hf, hfatal⟩
  · exact absurd rfl hne

/-- Settles O49: the latch's writers are TICK, REGL and BEGIN, each in its fatal case only. -/
theorem fatalFaultHasThreeCauses : Obligations.FatalFaultHasThreeCauses := by
  intro i s t h hne
  obtain rfl | rfl | ⟨baud, pin, rfl⟩ := (exec_outputs h).fault hne
  case inl =>
    obtain ⟨hf, ht, hc, rfl⟩ := execTick_of_fault_ne h hne
    exact ⟨hf, .inl ⟨rfl, ht, by bv_omega, rfl⟩⟩
  case inr.inl =>
    obtain ⟨hf, hl, rfl⟩ := execRegl_of_fault_ne h hne
    exact ⟨hf, .inr (.inl ⟨rfl, hl, rfl⟩)⟩
  case inr.inr =>
    obtain ⟨hf, hb, rfl⟩ := execBegin_of_fault_ne h hne
    exact ⟨hf, .inr (.inr ⟨baud, pin, rfl, hb, rfl⟩)⟩

end Sys2Proof.Machine
end

section
/-! PROOF. The reset values (O59; 70_reset_and_hazards R270, R271). The reset input and the initial state differ in nothing but the words
at the port, which are no element of the table. -/

namespace Sys2Proof.Machine

variable {s : State}

/-! ### What keeps an asynchronous event out -/

/-- TICK is disabled while the bit timer is stopped (41_tx_bit_engine R120). -/
theorem State.tickEnabled_of_timer_stopped (h : s.tx.timerRun = false) : s.tickEnabled = false := by
  rw [State.tickEnabled, h, Bool.false_and]

/-- RX and TIMEOUT are disabled while the read loop does not run (43_parser_framing R165, R173). -/
theorem State.readEnabled_of_stopped (h : s.ps.pstate = .stopped) : s.readEnabled = false := by
  rw [State.readEnabled, State.reading, State.running, h]
  rfl

/-- No PREPARE is expected while there is no request waiting (60_exceptions R240). -/
theorem State.prepareExpected_of_no_grant (h : s.tx.gs = .none) : s.prepareExpected = false := by
  rw [State.prepareExpected, h]
  rfl

/-! ### The two ways to the reset state -/

theorem eq_resetOf_of_applyReset_or_initial {r : State} (h : r = s.applyReset ∨ r = State.resetOf s.params) :
    ∃ port, r = { State.resetOf s.params with port } := by
  obtain rfl | rfl := h
  case inl => exact ⟨s.port, rfl⟩
  case inr => exact ⟨[], rfl⟩

/-- Settles O59: both states are the parameters' reset state but for the port, whose rows are its definition; with the timer and the read
loop stopped and no grant, no asynchronous event is enabled or expected. -/
theorem resetGivesEveryElementItsValue : Obligations.ResetGivesEveryElementItsValue := by
  intro s r h
  obtain ⟨port, rfl⟩ := eq_resetOf_of_applyReset_or_initial h
  iterate 28 refine ⟨rfl, ?_⟩
  exact ⟨State.tickEnabled_of_timer_stopped rfl, State.readEnabled_of_stopped rfl, State.prepareExpected_of_no_grant rfl⟩

end Sys2Proof.Machine
end
